-- ==== Sys2Proof/Word.lean ====
section
/-! DEFINITION. The word types: a byte, a register of the register window, and the bounds of the counts the
manual gives widths to. Counts, lengths, offsets and unit numbers are Nat; what the manual reads bit by bit
(registers, masks, flag bytes, CRC registers) is a bit vector. -/

namespace Sys2Proof

/-- One byte, as host memory, the flash and the sheets hold it. -/
abbrev Byte := BitVec 8

/-- One register of the register window (R139). -/
abbrev Reg := BitVec 32

/-- A memory in canonical form: addresses strictly rising, no entry equal to what an unlisted address reads as. -/
abbrev Mem := List Host.Cell

/-- FFFFFFFFh, where every 32-bit count of the part stays (R94, R148, R150). -/
def top32 : Nat := 0xFFFFFFFF

end Sys2Proof
end

