-- ==== Sys2Proof/Syntax.lean ====
section
/-! DEFINITION. The commands: one constructor of Instr per row of spec/opcode_table.json, with what the outside
world brings to it as operands: the value of a register write, the outcome of a flash operation, what the host
has written into its memory, how each bus transfer ends. -/

namespace Sys2Proof

/-- How one bus transfer ends (R152, R154): done, or failed, and then whether a write reached memory all the same. -/
inductive XferResult
  | ok
  | failed (reached : Bool)
  deriving DecidableEq, Repr

/-- What RESET# or a power loss leaves of the operation a bank had in progress (R106, R125): nothing done, the bytes
of a torn program, the mixture of a torn erase, or the operation whole with its outcome never handed over. -/
inductive Torn
  | untouched
  | bytes (left : List Byte)
  | mixture (erased : List Bool)
  | whole
  deriving DecidableEq, Repr

/-- What is left of the operation in progress on each bank. -/
structure TornOps where
  even : Torn
  odd  : Torn
  deriving DecidableEq, Repr

/-- What may arrive while a transfer of a step is in progress (R144, R145, R150, R155): a request for a scan, by WAKE or the scan
timer; EXCTL written with enable 0 and an interval, taken before the completion of the transfer or after it; RESET# going low. -/
inductive BusEvent
  | ask
  | disable (interval : Byte) (first : Bool)
  | reset (torn : TornOps)
  deriving DecidableEq, Repr

/-- One bus transfer as the outside world decides it: what the host writes into its own memory just before it, how it ends, and what
arrives while it is in progress. -/
structure Xfer where
  host   : List Host.Cell
  result : XferResult
  event  : Option BusEvent := none
  deriving DecidableEq, Repr

/-- What makes a transfer on the exchange area fail (R154). -/
inductive XferFault
  | endpointError
  | masteringOff
  | readTimeout
  deriving DecidableEq, Repr

/-- The two comparison lanes (R63). -/
inductive Lane
  | a
  | b
  deriving DecidableEq, Repr

/-- Who reads or writes a request's own buffer (R152). -/
inductive BufferUser
  | lane (l : Lane)
  | catalogue
  deriving DecidableEq, Repr

/-- The transfer whose read completion has not arrived within 50 ms (R152, R154). -/
inductive TimeoutAt
  | exchange
  | buffer (u : BufferUser)
  deriving DecidableEq, Repr

/-- The two banks of the store: even-numbered units and odd-numbered units (R105). -/
inductive Bank
  | even
  | odd
  deriving DecidableEq, Repr

/-- The end of a page or slot program (R108); a failed one leaves bytes that are not to be relied on. -/
inductive ProgOutcome
  | done
  | failed (left : List Byte)
  deriving DecidableEq, Repr

/-- The end of a unit erase (R109); a failed one leaves erased exactly the bytes whose place in the mask is true. -/
inductive EraseOutcome
  | done
  | failed (erased : List Bool)
  deriving DecidableEq, Repr

/-- How RESET# comes to be low (R161): a pulse of so many nanoseconds, which between 2 µs and 10 µs is taken or
filtered as the part happens to do, or power coming on. -/
inductive ResetLow
  | pulse (ns : Nat) (taken : Bool)
  | powerOn
  deriving DecidableEq, Repr

/-- A page read of mount that is not error-free: unit, page and bits in error (R107, R132). -/
structure MountRead where
  unit   : Nat
  page   : Nat
  errors : Nat
  deriving DecidableEq, Repr

/-- How the store answers mount: the reads that are not error-free, the ends of its erases and slot programs in
their order (a missing one is done), which bank ends first each time both have an operation in progress (a missing one is the even
bank), and after how many of these ends RESET# arrives again, if it does (R132, R135). -/
structure MountEnv where
  reads  : List MountRead
  erases : List EraseOutcome
  slots  : List ProgOutcome
  order  : List Bank
  cut    : Option Nat
  torn   : TornOps
  deriving DecidableEq, Repr

/-- A mount whose every store operation goes well. -/
def MountEnv.smooth : MountEnv :=
  { reads := [], erases := [], slots := [], order := [], cut := none, torn := { even := .untouched, odd := .untouched } }

/-- The header the host gives a line request's sheet: origin, flags and tag (R141). -/
structure SheetHead where
  origin : Byte
  flags  : Byte
  tag    : BitVec 16
  deriving DecidableEq, Repr

/-- A write on the register window: byte offset, width in bytes, value (R139). -/
structure RegWrite where
  offset : Nat
  width  : Nat
  value  : Reg
  deriving DecidableEq, Repr

/-- A key of the catalogue: station 0–15, block 0–63, format 0–30 or 31 for COMMON (R1). -/
structure Key where
  station : Nat
  block   : Nat
  format  : Nat
  deriving DecidableEq, Repr

/-- The commands of the part, one constructor per row of spec/opcode_table.json. -/
inductive Instr
  /-- RESET# goes low, or power comes on; torn says what is left of the store operations in progress (R161). -/
  | resetAssert (low : ResetLow) (torn : TornOps)
  /-- RESET# is released: seconds and debounce start, mount runs (R161, R132–R136). -/
  | resetRelease (env : MountEnv)
  /-- The PCIe link alone is reset (R161). -/
  | pcieLinkReset
  /-- A transfer on the exchange area fails (R154). -/
  | exchangeTransferFault (why : XferFault)
  /-- A read completion has not arrived within 50 ms (R152, R154). -/
  | readCompletionTimeout (what : TimeoutAt)
  /-- A transfer on a request's own buffer fails (R152). -/
  | bufferTransferFailure (user : BufferUser)
  /-- A 32-bit write to EXBASE_HI (high) or EXBASE_LO (R140). -/
  | exbaseWrite (high : Bool) (value : Reg)
  /-- A 32-bit write to EXCTL (R140). -/
  | exctlConfig (value : Reg) (io : List Xfer)
  /-- EXCTL written with enable 1, a bundle count and a scan interval (R143). -/
  | portEnable (count : BitVec 7) (interval : Byte) (io : List Xfer)
  /-- EXCTL written with enable 0, a bundle count and a scan interval (R155). -/
  | portDisable (count : BitVec 7) (interval : Byte)
  /-- A 32-bit write to WAKE (R144). -/
  | wake (value : Reg)
  /-- A 32-bit write to CAUSE (R158). -/
  | causeClear (value : Reg)
  /-- A 32-bit write to CAUSECFG (R157). -/
  | causecfgWrite (value : Reg)
  /-- A register write of any width at any offset (R139). -/
  | registerWriteOther (w : RegWrite)
  /-- The scan timer expires (R144). -/
  | scanTimerTick
  /-- The scan that was asked for is made; io gives its transfers in order (R145). -/
  | scan (io : List Xfer)
  /-- The oldest completion that has reached the port is written or dropped (R148). -/
  | completionWrite (io : List Xfer)
  /-- The gathered hand-overs are written into the status page (R151). -/
  | statusUpdate (io : List Xfer)
  /-- The KEYSW input goes to a level (R160). -/
  | keyswChange (level : Bool)
  /-- The 20 ms stability timer runs out (R160). -/
  | keyswDebounceExpiry
  /-- One second passes (R94). -/
  | secondsTick
  /-- The window deadline is reached (R98). -/
  | windowExpiry
  /-- The verdict of one entry reaches its due second (R101). -/
  | stalenessExpiry (key : Key)
  /-- OPEN_CHANGEOVER is taken at the cursor (R95). -/
  | openChangeover (head : SheetHead) (target : Byte) (window : Reg)
  /-- CLOSE_CHANGEOVER is taken at the cursor (R96). -/
  | closeChangeover (head : SheetHead)
  /-- ABANDON_CHANGEOVER is taken at the cursor (R99). -/
  | abandonChangeover (head : SheetHead)
  /-- HOLD_OUT is taken at the cursor (R88). -/
  | holdOut (head : SheetHead) (station : Byte)
  /-- RESTORE is taken at the cursor (R89). -/
  | restore (head : SheetHead) (station : Byte)
  /-- The Catalogue Unit begins the ENROL at the head of its queue (R12–R14). -/
  | enrol
  /-- The Catalogue Unit begins the COMMIT at the head of its queue (R15). -/
  | commit
  /-- The Catalogue Unit begins the DISCARD at the head of its queue (R16). -/
  | discard
  /-- The Catalogue Unit begins the REVERT at the head of its queue (R17). -/
  | revert
  /-- The Catalogue Unit begins the RETIRE at the head of its queue (R18). -/
  | retire
  /-- The Catalogue Unit begins the READ_BASELINE at the head of its queue (R20). -/
  | readBaseline
  /-- The Catalogue Unit begins the LIST at the head of its queue, or goes on with the one in hand: it writes so many listing records
  before another event comes, or with none all that are left (R21). -/
  | list (upTo : Option Nat)
  /-- The Catalogue Unit carries out the CLEAR_PEAKS at the head of its queue (R22). -/
  | clearPeaks
  /-- The Catalogue Unit begins the RULE_LOAD with a count above 0 at the head of its queue (R32–R35). -/
  | ruleLoad
  /-- The Catalogue Unit begins the RULE_LOAD with a count of 0 at the head of its queue (R36). -/
  | ruleSetDelete
  /-- The Catalogue Unit begins the STATION_DEFINE, its action not UNDEFINE, at the head of its queue (R87). -/
  | stationDefine
  /-- The Catalogue Unit begins the STATION_DEFINE with the action UNDEFINE at the head of its queue (R87). -/
  | stationUndefine
  /-- The Catalogue Unit begins the PARAM_SET at the head of its queue (R102). -/
  | paramSet
  /-- The Catalogue Unit begins the FORMAT_STORE at the head of its queue (R137). -/
  | formatStore
  /-- Between requests, the records of the set persistence marks are begun (R100). -/
  | persistenceMarkWrite
  /-- Between requests, the erasing of the pending units is begun (R116). -/
  | erasePendingUnits
  /-- Between requests, a reclaim step is begun (R118). -/
  | reclaimStep
  /-- Between requests, a snapshot is begun (R130). -/
  | snapshot
  /-- The Catalogue Unit takes the oldest integrity report (R5). -/
  | damagedReport
  /-- A lane takes the CHECK at the head of the check queue (R64). -/
  | check
  /-- A lane takes the ADMIT at the head of the check queue (R72). -/
  | admission
  /-- The last captured byte arrives in a lane's buffer; host is what the host wrote before (R67). -/
  | captureComplete (lane : Lane) (host : List Host.Cell)
  /-- A bank ends a page read with so many bits in error (R107). -/
  | pageReadDone (bank : Bank) (errors : Nat)
  /-- A bank ends a page program (R108). -/
  | pageProgramDone (bank : Bank) (outcome : ProgOutcome)
  /-- A bank ends a slot program (R108). -/
  | slotProgramDone (bank : Bank) (outcome : ProgOutcome)
  /-- A bank ends a unit erase (R109). -/
  | eraseDone (bank : Bank) (outcome : EraseOutcome)
  /-- The supplies fall away (R161). -/
  | powerLoss (torn : TornOps)
  /-- The endpoint's configuration switches bus mastering on or off (R154). -/
  | busMasteringSwitch (on : Bool)
  /-- The read of an ENROL image or a rule array ends; host is what the host wrote before (R13, R32). -/
  | enrolmentBufferReadDone (host : List Host.Cell)
  deriving DecidableEq, Repr

end Sys2Proof
end

