-- ==== Sys2Proof/Machine/Bytes.lean ====
section
/-! DEFINITION. Byte order, byte layouts and the CRC-32 of the Conventions: what every block uses to read and write
numbers as bytes. -/

namespace Sys2Proof.Machine

/-- The n bytes of a number, least significant first (R163). -/
def leBytes : Nat → Nat → List Byte
  | 0, _ => []
  | n + 1, v => BitVec.ofNat 8 v :: leBytes n (v / 256)

/-- The number of bytes given least significant first (R163). -/
def leNat : List Byte → Nat
  | [] => 0
  | b :: bs => b.toNat + 256 * leNat bs

/-- The number of bytes given most significant first (R30). -/
def beNat (bs : List Byte) : Nat := leNat bs.reverse

/-- The n bytes from an offset. -/
def sliceAt (bs : List Byte) (off n : Nat) : List Byte := (bs.drop off).take n

/-- The little-endian number of n bytes at an offset. -/
def numAt (bs : List Byte) (off n : Nat) : Nat := leNat (sliceAt bs off n)

/-- Writes bytes over a list at an offset. -/
def putAt (bs : List Byte) (off : Nat) (v : List Byte) : List Byte := bs.take off ++ v ++ bs.drop (off + v.length)

/-- A layout of n bytes: zeros, with each item at its offset. -/
def layout (n : Nat) (items : List (Nat × List Byte)) : List Byte :=
  items.foldl (fun acc it => putAt acc it.1 it.2) (List.replicate n 0#8)

/-- A list brought to n bytes, cut or filled up with a byte. -/
def fillTo (n : Nat) (fill : Byte) (bs : List Byte) : List Byte := bs.take n ++ List.replicate (n - bs.length) fill

/-- One bit of the reflected CRC-32: 04C11DB7h reflected is EDB88320h (Conventions, CRC). -/
def crcBit (c : BitVec 32) : BitVec 32 := if c.getLsbD 0 then (c >>> 1) ^^^ 0xEDB88320#32 else c >>> 1

/-- One byte, least significant bit first. -/
def crcByte (c : BitVec 32) (b : Byte) : BitVec 32 :=
  crcBit (crcBit (crcBit (crcBit (crcBit (crcBit (crcBit (crcBit (c ^^^ b.setWidth 32))))))))

/-- The CRC-32 of the Conventions: initial value and final XOR FFFFFFFFh. -/
def crc32 (bs : List Byte) : Nat := ((bs.foldl crcByte 0xFFFFFFFF#32) ^^^ 0xFFFFFFFF#32).toNat

/-- A sum of 32-bit counts that stays at FFFFFFFFh (R94, R148, R150). -/
def satAdd (a b : Nat) : Nat := min (a + b) top32

/-- The pages of an image of so many bytes: the length divided by 512, rounded up (R2, R113). -/
def pagesFor (length : Nat) : Nat := (length + 511) / 512

/-- A list with the element at one place replaced by its image. -/
def modifyNth {α : Type} (f : α → α) : Nat → List α → List α
  | _, [] => []
  | 0, x :: xs => f x :: xs
  | n + 1, x :: xs => x :: modifyNth f n xs

end Sys2Proof.Machine
end

