-- ==== Sys2Proof/Config.lean ====
section
/-! DEFINITION. What one edition of the part fixes: the sizes and limits that the manual states as numbers. Nothing
here is left open by the manual; the physical outcomes it leaves open are operands of the commands. -/

namespace Sys2Proof.Config

/-- Erase units of the store (R105). -/
def unitCount : Nat := 1024
/-- Pages of an erase unit (R105). -/
def pagesPerUnit : Nat := 32
/-- Bytes of a page (R105). -/
def pageBytes : Nat := 512
/-- Bytes of an erase unit. -/
def unitBytes : Nat := 16384
/-- Slots of a record unit (R110). -/
def slotsPerUnit : Nat := 128
/-- Bytes of a record slot (R125). -/
def slotBytes : Nat := 128
/-- The largest record area, which mount reads (R110, R132). -/
def maxRecordUnits : Nat := 64
/-- The smallest record area (R110). -/
def minRecordUnits : Nat := 24
/-- The record area taken for a requested size of 0 (R110). -/
def defaultRecordUnits : Nat := 32
/-- The largest possible snapshot, in records (R130). -/
def largestSnapshot : Nat := 1172
/-- Fewer empty good record units than this call for a snapshot (R130). -/
def snapshotBelow : Nat := 10
/-- A FREE count below this sets the reclaim run flag (R117). -/
def reclaimStart : Nat := 16
/-- A FREE count of this or more clears the reclaim run flag (R117). -/
def reclaimStop : Nat := 24
/-- Entries of the catalogue at most (R1). -/
def maxEntries : Nat := 1024
/-- Requests of the check queue at most (R62). -/
def checkQueueRoom : Nat := 12
/-- Requests of the catalogue queue at most (R8). -/
def catalogueQueueRoom : Nat := 4
/-- Rules of Rule Memory at most (R23). -/
def maxRules : Nat := 512
/-- The format value of COMMON (R1). -/
def common : Nat := 31
/-- The generation counter at which an entry takes no further image (R12). -/
def counterSpent : Nat := 0xFFFFFFFF
/-- The epoch from which no changeover is opened (R93, R95). -/
def epochSpent : Nat := 0xFFFFFFFE
/-- Units the fuse list names at most (R111). -/
def maxFuses : Nat := 24
/-- IDENT: part code 3160h, revision 01h (R165, Registers). -/
def ident : Reg := 0x31600001#32
/-- CAUSECFG after RESET# (R165, Registers). -/
def causecfgReset : Reg := 0x03E003FF#32
/-- A RESET# pulse of fewer nanoseconds than this is filtered out (R161). -/
def resetFiltered : Nat := 2000
/-- A RESET# pulse of this many nanoseconds or more is taken (R161). -/
def resetTaken : Nat := 10000
/-- Bound on the operations the Catalogue Unit works through between two waits; every chain of them is far shorter. -/
def workBound : Nat := 8192

end Sys2Proof.Config
end

