-- ==== Sys2Proof/Machine/State.lean ====
section
/-! DEFINITION. The state of the part, block by block, as plain data; the queue of waiting commands; the state
after RESET#. -/

namespace Sys2Proof.Machine

/-! ## Coded values -/

/-- Device states (R165, Coded Values). -/
inductive DeviceState
  | mounting
  | ready
  | unformatted
  | formatting
  deriving DecidableEq, Repr

/-- Line states (R92). -/
inductive LineState
  | unready
  | noFormat
  | running
  | changeover
  | settling
  deriving DecidableEq, Repr

/-- Verdict values of an entry, from least to most severe (R4, R90). -/
inductive Verdict
  | conform
  | tolerated
  | unchecked
  | stale
  | overridden
  | malformed
  | deviant
  deriving DecidableEq, Repr

/-- Station states (R86, R90). -/
inductive StationState
  | judged (v : Verdict)
  | empty
  | held
  | undefined
  deriving DecidableEq, Repr

/-- Byte order of a station's values (R30). -/
inductive ByteOrder
  | big
  | little
  deriving DecidableEq, Repr

/-- Port states (R142). -/
inductive PortState
  | disabled
  | running
  | waiting
  | halted
  deriving DecidableEq, Repr

/-- The ten attention causes (R156). -/
inductive Cause
  | sheetDone
  | bundleWiped
  | lineState
  | station
  | key
  | conformLost
  | watchHit
  | storeFault
  | exchangeFault
  | lapsed
  deriving DecidableEq, Repr

/-- Request kinds of a sheet (R146; R165, Kinds). -/
inductive Kind
  | check
  | admission
  | enrol
  | commit
  | discard
  | revert
  | retire
  | ruleLoad
  | readBaseline
  | list
  | clearPeaks
  | stationDefine
  | paramSet
  | formatStore
  | openChangeover
  | closeChangeover
  | abandonChangeover
  | holdOut
  | restore
  deriving DecidableEq, Repr

/-- Completion codes, refusal reasons and grant bases (R165, Coded Values). -/
inductive Code
  | ok
  | superseded
  | notReady
  | badOrigin
  | notPermitted
  | keyOff
  | frozen
  | busy
  | badKind
  | badState
  | badKey
  | badLength
  | badAddress
  | badParameter
  | badRule
  | noStation
  | noRuleset
  | noBaseline
  | noFormat
  | wrongState
  | inUse
  | bufferShort
  | catalogueFull
  | rulesFull
  | storeFull
  | counterSpent
  | transferError
  | storeFault
  | baselineDamaged
  | rulesetFault
  | baseMalformed
  | policy
  | operatorDisabled
  | windowClosed
  | overrideDisabled
  | changeoverActive
  | recheck
  | passed
  | heldOut
  | override
  deriving DecidableEq, Repr

/-- ADMIT decisions (R79, R85). -/
inductive Decision
  | granted
  | grantedOverride
  | refused
  deriving DecidableEq, Repr

/-! ## The catalogue -/

/-- A generation record: number, image location, length and CRC (R2). -/
structure Generation where
  number : Nat
  unit   : Nat
  first  : Nat
  pages  : Nat
  length : Nat
  crc    : Nat
  deriving DecidableEq, Repr

/-- The band peak of an entry: usage, rule index or none, offset (R1, R61). -/
structure BandPeak where
  usage  : Nat
  rule   : Option Nat
  offset : Nat
  deriving DecidableEq, Repr

/-- The track peak of an entry: magnitude, offset (R1, R61). -/
structure TrackPeak where
  magnitude : Nat
  offset    : Nat
  deriving DecidableEq, Repr

/-- A catalogue entry (R1). The uid is the model's own: it tells an entry from a later one with the same key (R18, R73). -/
structure Entry where
  uid       : Nat
  key       : Key
  counter   : Nat
  ruleSet   : Nat
  staged    : Option Generation
  current   : Option Generation
  previous  : Option Generation
  damaged   : Bool
  verdict   : Verdict
  second    : Nat
  epoch     : Nat
  bandPeak  : BandPeak
  trackPeak : TrackPeak
  deriving DecidableEq, Repr

/-! ## Rule Memory -/

/-- Width and coding of a field (R25). -/
inductive FieldKind
  | u8
  | s8
  | u16
  | s16
  | u32
  | s32
  | bcd16
  | bcd32
  | quad
  deriving DecidableEq, Repr

/-- The test a field must pass, with its band parameters (R24, R25). -/
inductive Policy
  | exact
  | watch
  | bandAbs (loAllow hiAllow : Int)
  | bandRel (permille floor : Nat)
  | track
  | ignore
  deriving DecidableEq, Repr

/-- A field rule (R24); mask and pat, the match value, are examined bit by bit. -/
structure FieldRule where
  lo     : Nat
  hi     : Nat
  mask   : BitVec 16
  pat    : BitVec 16
  kind   : FieldKind
  policy : Policy
  deriving DecidableEq, Repr

/-- The recorded image of a rule set (R23). -/
structure SetImage where
  unit  : Nat
  first : Nat
  pages : Nat
  count : Nat
  crc   : Nat
  deriving DecidableEq, Repr

/-- A rule set of Rule Memory (R23). -/
inductive RuleSet
  | absent
  | loaded (img : SetImage) (rules : List FieldRule)
  | faulted (img : SetImage)
  deriving DecidableEq, Repr

/-! ## The Line Controller -/

/-- A persistence mark (R100): clear, set, or set with its value read for a record not yet complete. -/
inductive Mark
  | clear
  | marked
  | reading
  deriving DecidableEq, Repr

/-- The seven judged counts of a station (R90). -/
structure JudgedCounts where
  conform    : Nat
  tolerated  : Nat
  unchecked  : Nat
  stale      : Nat
  overridden : Nat
  malformed  : Nat
  deviant    : Nat
  deriving DecidableEq, Repr

/-- A place of the station table (R86). -/
structure Station where
  defined : Bool
  order   : ByteOrder
  name    : List Byte
  heldOut : Bool
  state   : StationState
  counts  : JudgedCounts
  mark    : Mark
  deriving DecidableEq, Repr

/-- The line parameters (R102). -/
structure Params where
  staleness     : Nat
  operatorAdmit : Bool
  override      : Bool
  deriving DecidableEq, Repr

/-- The Line Controller (R86, R92, R94, R102, R103). -/
structure Line where
  state      : LineState
  active     : Option Nat
  target     : Option Nat
  deadline   : Option Nat
  epoch      : Nat
  formatMark : Mark
  stations   : List Station
  params     : Params
  seconds    : Nat
  conform    : Bool
  deriving DecidableEq, Repr

/-! ## The Attention Unit, the key switch and the pins -/

/-- The pending set and its configuration, bit n for cause n (R156, R157). -/
structure Attention where
  pending : BitVec 10
  enable  : BitVec 10
  route   : BitVec 10
  deriving DecidableEq, Repr

/-- The KEYSW debounce: the debounced level and whether the 20 ms stability timer runs (R160). -/
structure Debounce where
  level   : Bool
  running : Bool
  deriving DecidableEq, Repr

/-- The supplies, the RESET# and KEYSW inputs, and the endpoint's bus mastering (R160, R161, R154). -/
structure Pins where
  powered   : Bool
  resetLow  : Bool
  keysw     : Bool
  mastering : Bool
  deriving DecidableEq, Repr

/-! ## Requests and completions -/

/-- A taken request, with all it carries from its sheet (R62, R146): params are bytes 8 to 63. -/
structure Request where
  bundle     : Nat
  sheet      : Nat
  kind       : Kind
  origin     : Byte
  flags      : Byte
  tag        : BitVec 16
  keyOn      : Bool
  enablement : Nat
  params     : List Byte
  deriving DecidableEq, Repr

/-- A completion that has reached the Exchange Port (R148): the result area and the findings, where they are written. -/
structure Completion where
  bundle     : Nat
  sheet      : Nat
  enablement : Nat
  quiet      : Bool
  code       : Code
  result     : Option (List Byte)
  findings   : Option (List Byte)
  deriving DecidableEq, Repr

/-! ## The Check Engine -/

/-- Lane states (R63). -/
inductive LaneState
  | idle
  | opening
  | capturing
  | reading
  | closing
  deriving DecidableEq, Repr

/-- What a lane notes at setup (R66): the entry, its current generation, the format resolved, the epoch. -/
structure LaneSetup where
  entry    : Nat
  key      : Key
  gen      : Generation
  resolved : Nat
  epoch    : Nat
  deriving DecidableEq, Repr

/-- A lane: its request, its notes, rule copy, byte order, capture buffer, the baseline bytes read so far (R63 to R68). -/
structure LaneRegs where
  state      : LaneState
  req        : Option Request
  setup      : Option LaneSetup
  rules      : List FieldRule
  order      : ByteOrder
  capture    : List Byte
  captureCrc : Nat
  baseline   : List Byte
  pagesRead  : Nat
  removed    : Bool
  pin        : Option Nat
  deriving DecidableEq, Repr

/-- The Check Engine: the check queue and the two lanes (R62, R63). -/
structure Engine where
  queue : List Request
  laneA : LaneRegs
  laneB : LaneRegs
  deriving DecidableEq, Repr

/-! ## The Baseline Store -/

/-- Mode of an erase unit (R105, R108). -/
inductive UnitMode
  | erased
  | image
  | record
  deriving DecidableEq, Repr

/-- Class of an image unit (R112). -/
inductive UnitClass
  | free
  | opened
  | full
  | bad
  deriving DecidableEq, Repr

/-- What the store keeps for each unit (R105); cls is none for record units and while classes are not known (R124). -/
structure EraseUnit where
  mode    : UnitMode
  pages   : Nat
  slots   : Nat
  bad     : Bool
  cls     : Option UnitClass
  live    : Nat
  readers : Nat
  weak    : Bool
  pending : Bool
  skip    : Bool
  passed  : Bool
  deriving DecidableEq, Repr

/-- The three clients of the banks (R106). -/
inductive Client
  | lane (l : Lane)
  | catalogue
  deriving DecidableEq, Repr

/-- A bank operation on one unit (R106). -/
inductive BankOp
  | readPage (unit page : Nat)
  | programPage (unit page : Nat) (data : List Byte)
  | programSlot (unit slot : Nat) (data : List Byte)
  | eraseUnit (unit : Nat)
  deriving DecidableEq, Repr

/-- An operation in a bank queue, with the client that asked for it. -/
structure BankJob where
  client : Client
  op     : BankOp
  deriving DecidableEq, Repr

/-- The Baseline Store (R105). The bad-unit list is the units whose bad flag is set; the head of a bank queue is in
progress; recordSize is R, none while not known; fuses is the on-chip fuse list (R111). -/
structure Store where
  units      : List EraseUnit
  flash      : Mem
  openUnit   : Option Nat
  lastBank   : Option Bank
  runFlag    : Bool
  recordSize : Option Nat
  fuses      : List Nat
  bank0      : List BankJob
  bank1      : List BankJob
  deriving DecidableEq, Repr

/-! ## Records and the work of the Catalogue Unit -/

/-- Form of an ENTRY or RULESET record (R125). -/
inductive RecordForm
  | change
  | relocate
  deriving DecidableEq, Repr

/-- The persistent fields of an entry, as an ENTRY record carries them (R126). -/
structure EntryImage where
  key      : Key
  ruleSet  : Nat
  counter  : Nat
  staged   : Option Generation
  current  : Option Generation
  previous : Option Generation
  deriving DecidableEq, Repr

/-- The persistent fields of a station's place, as a STATION record carries them (R86, R126). -/
structure StationImage where
  defined : Bool
  order   : ByteOrder
  name    : List Byte
  heldOut : Bool
  deriving DecidableEq, Repr

/-- A record of the journal, by kind (R126). -/
inductive JournalRecord
  | entry (form : RecordForm) (e : EntryImage)
  | entryGone (k : Key)
  | ruleset (form : RecordForm) (n : Nat) (img : SetImage)
  | rulesetGone (n : Nat)
  | station (n : Nat) (s : StationImage)
  | param (ps : Params)
  | format (f : Nat)
  | bad (units : List Nat)
  | commitBegin (f n : Nat)
  | commitEnd
  | snapBegin (r : Nat)
  | snapEnd (count : Nat)
  deriving DecidableEq, Repr

/-- An item a snapshot states (R130); the bad-unit list goes sixteen units to a record, as planned when it begins (R128). -/
inductive SnapItem
  | start
  | bad (units : List Nat)
  | ruleset (n : Nat)
  | station (n : Nat)
  | param
  | format
  | entry (k : Key)
  deriving DecidableEq, Repr

/-- A run of consecutive pages of one unit (R113). -/
structure PageRun where
  unit  : Nat
  first : Nat
  pages : Nat
  deriving DecidableEq, Repr

/-- A referenced image: a generation of an entry, or a rule set's image (R114). -/
inductive ImageRef
  | gen (uid number : Nat)
  | set (n : Nat)
  deriving DecidableEq, Repr

/-- Where an image lies and how it is checked: its run, its length in bytes and its CRC. -/
structure ImageSpan where
  run    : PageRun
  length : Nat
  crc    : Nat
  deriving DecidableEq, Repr

/-- Why an image is moved (R119): a reclaim step of a run, inline reclaim (R120), an evacuation (R121). -/
inductive MoveWhy
  | step
  | inline
  | evacuation
  deriving DecidableEq, Repr

/-- A move in progress: its image, source and target, and whether it is the second attempt of R123. -/
structure Move where
  ref    : ImageRef
  src    : ImageSpan
  target : PageRun
  second : Bool
  why    : MoveWhy
  deriving DecidableEq, Repr

/-- Whose records are written: it says what happens when they are complete, and when the journal cannot accept them (R127). -/
inductive Writer
  | enrol
  | commit (f : Nat)
  | discard (k : Key)
  | revert (k : Key)
  | retire (k : Key)
  | ruleLoad
  | ruleDelete (n : Nat)
  | stationDefine
  | stationUndefine
  | paramSet
  | stationMark (n : Nat)
  | formatMark
  | move (m : Move)
  | badUnit (u : Nat)
  | snapshotPart
  deriving DecidableEq, Repr

/-- Why units of a list are erased (R116, R120, R118, R131, R135 step 3, R138). -/
inductive EraseWhy
  | between
  | inline
  | step
  | snapshotEnd
  | mountOld
  | formatting
  deriving DecidableEq, Repr

/-- What the Catalogue Unit has still to do, in order. -/
inductive CuOp
  /-- Make the room test for k records, where there is one, and write the writer's records (R127). -/
  | append (k : Option Nat) (again : Bool) (w : Writer)
  /-- Write these records, each under the next sequence number (R125). -/
  | write (recs : List JournalRecord) (w : Writer)
  /-- Write the BAD records that wait to be written (R111, R128). -/
  | flushBad
  /-- Begin a snapshot if there is room for it (R130). -/
  | snapshot
  /-- Write the remaining items of a snapshot, count records having been written since SNAP_BEGIN (R130). -/
  | snapItems (items : List SnapItem) (count : Nat)
  /-- SNAP_END is complete (R131). -/
  | snapClosed
  /-- Erase these units in turn. -/
  | erase (us : List Nat) (why : EraseWhy)
  /-- Erase every pending unit with no reader (R116, R120). -/
  | erasePending (why : EraseWhy)
  /-- Place the request's image and program it (R113, R122). -/
  | place (second afterInline : Bool)
  /-- Free a unit within the request (R120). -/
  | inlineReclaim
  | inlineLoop
  /-- Choose a unit and act on it (R118). -/
  | reclaimStep
  /-- Move the live images of a condemned unit, from this first page upward (R121). -/
  | evacuate (unit page : Nat)
  /-- Move one image (R119). -/
  | move (ref : ImageRef) (second : Bool) (why : MoveWhy) (afterInline : Bool)
  /-- A move that failed twice leaves its image (R123). -/
  | moveGivenUp (ref : ImageRef)
  /-- A request whose image failed twice ends (R122). -/
  | imageGivenUp
  /-- Read the next page for READ_BASELINE (R20). -/
  | readBack (page : Nat)
  /-- DISCARD ends with its two numbers (R16). -/
  | discardEnd
  /-- READ_BASELINE ends (R20). -/
  | readBackEnd (code : Code)
  /-- The request ends with this code and result area. -/
  | finish (code : Code) (result : List Byte)
  /-- Steps of FORMAT_STORE after the erases (R138). -/
  | formatWrite
  | formatEmpty
  | formatReady
  /-- Steps 5 and 6 to 9 of R135: the dirty-unit sweep, and the end of mount. -/
  | mountSweep
  | mountReady
  deriving DecidableEq, Repr

/-- What the Catalogue Unit waits for: a host read into the enrolment buffer, the next writes of a LIST of which some records are
written, the erases of the sweep outstanding on the two banks, or a bank operation and what it goes on with. -/
inductive CuAwait
  | hostRead
  | listing (written : Nat)
  | sweep (running : List Nat)
  | slot (recs : List JournalRecord) (num : Nat) (w : Writer)
  | ringErase (recs : List JournalRecord) (num : Nat) (w : Writer) (again : Bool)
  | program (run : PageRun) (page : Nat) (second : Bool)
  | moveRead (m : Move) (page : Nat)
  | moveProgram (m : Move) (page : Nat)
  | readBack (page : Nat)
  | erase (unit : Nat) (rest : List Nat) (why : EraseWhy)
  deriving DecidableEq, Repr

/-- What holds the Catalogue Unit (R8). -/
inductive CuWork
  | idle
  | request
  | marks
  | erases
  | snapshot
  | reclaim
  | mount
  deriving DecidableEq, Repr

/-- A report that a generation of an entry failed its integrity check (R5). -/
structure DamageReport where
  uid    : Nat
  number : Nat
  deriving DecidableEq, Repr

/-- The Catalogue Unit (R8, R10, R13, R125, R127). Its scratch items belong to the work in progress: the enrolment
buffer, the byte order an ENROL holds, its overrun count, the run programmed, DISCARD's two numbers, the bytes a move or a
READ_BASELINE has read, the unit READ_BASELINE pins, and whether a placement has failed. -/
structure CatUnit where
  queue      : List Request
  work       : CuWork
  req        : Option Request
  todo       : List CuOp
  await      : Option CuAwait
  entries    : List Entry
  nextUid    : Nat
  reports    : List DamageReport
  beginFirst : Bool
  buffer     : List Byte
  order      : ByteOrder
  overruns   : Nat
  run        : Option PageRun
  dropped    : Nat
  ceased     : Nat
  copy       : List Byte
  pin        : Option Nat
  unplaced   : Bool
  nextSeq    : Nat
  writeUnit  : Option Nat
  appended   : Bool
  fresh      : List Nat
  badWaiting : List Nat
  snapDone   : Bool
  deriving DecidableEq, Repr

/-! ## The Exchange Port -/

/-- What the port keeps for each bundle (R142). -/
structure Bundle where
  fresh : Bool
  done  : Nat
  wipes : Nat
  deriving DecidableEq, Repr

/-- A station as the status page shows it (R104). -/
structure StationView where
  state  : StationState
  counts : JudgedCounts
  name   : Option (List Byte)
  deriving DecidableEq, Repr

/-- The status copy: every item of R151. -/
structure StatusCopy where
  device    : DeviceState
  line      : LineState
  active    : Option Nat
  target    : Option Nat
  window    : Nat
  epoch     : Nat
  key       : Bool
  conform   : Bool
  gap       : Bool
  completed : Nat
  free      : Nat
  bad       : Nat
  weak      : Nat
  stations  : List StationView
  wipes     : List Nat
  deriving DecidableEq, Repr

/-- An item of the status page (R165, Status Page). -/
inductive StatusItem
  | device
  | line
  | active
  | target
  | window
  | epoch
  | key
  | conform
  | gap
  | completed
  | free
  | bad
  | weak
  | station (n : Nat)
  | counts (n : Nat)
  | name (n : Nat)
  | wipes (b : Nat)
  deriving DecidableEq, Repr

/-- The Exchange Port (R139, R142). The enablement is numbered, so that one is told from the next; changed are the items
handed over and not yet written; completions wait in the order in which they reached the port. -/
structure Port where
  state       : PortState
  baseLo      : Reg
  baseHi      : Reg
  count       : Nat
  interval    : Nat
  timer       : Option Nat
  cursorB     : Nat
  cursorS     : Nat
  bundles     : List Bundle
  completed   : Nat
  updates     : Nat
  scanAsked   : Bool
  enablement  : Option Nat
  nextEnable  : Nat
  copy        : StatusCopy
  changed     : List StatusItem
  completions : List Completion
  deriving DecidableEq, Repr

/-! ## The part and the machine -/

/-- The part with all its blocks, and the host memory it reaches over the bus. -/
structure Part where
  pins   : Pins
  device : DeviceState
  gap    : Bool
  att    : Attention
  key    : Debounce
  line   : Line
  rules  : List RuleSet
  cat    : CatUnit
  engine : Engine
  store  : Store
  port   : Port
  host   : Mem
  deriving DecidableEq, Repr

/-- The machine: the part, and the commands that wait, first in, first out. -/
structure State where
  part    : Part
  pending : List Instr
  deriving DecidableEq, Repr

/-- Reasons to stop with a fault: there is none. The manual gives every command an effect in every state, failed
transfers and failed flash operations included, so the type has no constructor. Safe. -/
inductive Fault
  deriving DecidableEq, Repr

/-- Reasons to refuse a command. -/
inductive Refusal
  /-- The command has no meaning yet: raised by exec's arm alone. Safe. -/
  | notModelled (mnemonic : String)
  deriving DecidableEq, Repr

/-! ## Values after RESET# -/

def BandPeak.zero : BandPeak := { usage := 0, rule := none, offset := 0 }
def TrackPeak.zero : TrackPeak := { magnitude := 0, offset := 0 }

def JudgedCounts.zero : JudgedCounts :=
  { conform := 0, tolerated := 0, unchecked := 0, stale := 0, overridden := 0, malformed := 0, deviant := 0 }

/-- A place of the station table after RESET# (R86); byte order and name mean nothing while undefined. -/
def Station.blank : Station :=
  { defined := false, order := .big, name := List.replicate 8 0#8, heldOut := false, state := .undefined
    counts := .zero, mark := .clear }

/-- The defaults of the line parameters (R102). -/
def Params.defaults : Params := { staleness := 600, operatorAdmit := true, override := false }

/-- The Line Controller after RESET# (R86, R92, R93, R94, R102, R103). -/
def Line.reset : Line :=
  { state := .unready, active := none, target := none, deadline := none, epoch := 0, formatMark := .clear
    stations := List.replicate 16 .blank, params := .defaults, seconds := 0, conform := false }

/-- The Attention Unit after RESET#: nothing pending, every cause enabled, causes 5 to 9 urgent (R156, R157). -/
def Attention.reset : Attention := { pending := 0#10, enable := 0x3FF#10, route := 0x3E0#10 }

/-- A lane after RESET# (R63). -/
def LaneRegs.reset : LaneRegs :=
  { state := .idle, req := none, setup := none, rules := [], order := .big, capture := [], captureCrc := 0
    baseline := [], pagesRead := 0, removed := false, pin := none }

/-- The Check Engine after RESET# (R62, R63). -/
def Engine.reset : Engine := { queue := [], laneA := .reset, laneB := .reset }

/-- A unit never programmed, with its volatile items at their values after RESET#. -/
def EraseUnit.blank : EraseUnit :=
  { mode := .erased, pages := 0, slots := 0, bad := false, cls := none, live := 0, readers := 0, weak := false
    pending := false, skip := false, passed := false }

/-- The values of a unit after RESET#: what is in the flash stays, all else is empty or not yet known (R105, R124). -/
def EraseUnit.afterReset (u : EraseUnit) : EraseUnit :=
  { EraseUnit.blank with mode := u.mode, pages := u.pages, slots := u.slots }

/-- The Catalogue Unit after RESET# (R8, R10). -/
def CatUnit.reset : CatUnit :=
  { queue := [], work := .idle, req := none, todo := [], await := none, entries := [], nextUid := 0, reports := []
    beginFirst := false, buffer := [], order := .big, overruns := 0, run := none, dropped := 0, ceased := 0, copy := []
    pin := none, unplaced := false, nextSeq := 1, writeUnit := none, appended := false, fresh := [], badWaiting := []
    snapDone := false }

def Bundle.reset : Bundle := { fresh := false, done := 0, wipes := 0 }

def StationView.reset : StationView := { state := .undefined, counts := .zero, name := none }

/-- The status copy after RESET#: the values of the blocks (R142). -/
def StatusCopy.reset : StatusCopy :=
  { device := .mounting, line := .unready, active := none, target := none, window := 0, epoch := 0, key := false
    conform := false, gap := false, completed := 0, free := 0, bad := 0, weak := 0
    stations := List.replicate 16 .reset, wipes := List.replicate 64 0 }

/-- The Exchange Port after RESET# (R139, R142). -/
def Port.reset : Port :=
  { state := .disabled, baseLo := 0#32, baseHi := 0#32, count := 4, interval := 10, timer := none, cursorB := 0
    cursorS := 0, bundles := List.replicate 64 .reset, completed := 0, updates := 0, scanAsked := false
    enablement := none, nextEnable := 0, copy := .reset, changed := [], completions := [] }

/-- A store no program has been made in: every page erased. -/
def Store.blank : Store :=
  { units := List.replicate Config.unitCount .blank, flash := [], openUnit := none, lastBank := none, runFlag := false
    recordSize := none, fuses := [], bank0 := [], bank1 := [] }

/-- The part while RESET# is low, before its first mount: supplies up, RESET# low, flash erased. -/
def Part.reset : Part :=
  { pins := { powered := true, resetLow := true, keysw := false, mastering := true }
    device := .mounting, gap := false, att := .reset, key := { level := false, running := false }, line := .reset
    rules := List.replicate 64 .absent, cat := .reset, engine := .reset, store := .blank, port := .reset, host := [] }

/-- The machine right after RESET# has taken effect, RESET# still low and no command waiting (R139, R142, R161). -/
def State.reset : State := { part := .reset, pending := [] }

end Sys2Proof.Machine
end

