-- ==== Sys2Proof/Machine/Ops.lean ====
section
/-! DEFINITION. The named operations every block is written over: memories in canonical form, host memory, the units
and the flash of the store, the station table, the catalogue, and raising a cause. -/

namespace Sys2Proof.Machine

/-! ## Memories in canonical form -/

/-- What an unlisted byte of the flash reads as: FFh, the erased value (R107, R109). -/
def flashBlank : Byte := 0xFF#8

/-- DESIGN CHOICE (log 2): what an unlisted byte of host memory reads as, 00h, as the host writes it before enabling. -/
def hostBlank : Byte := 0x00#8

/-- Reads one byte; d is what an unlisted address reads as. -/
def Mem.read (d : Byte) : Mem → Nat → Byte
  | [], _ => d
  | (k, v) :: r, a => if k = a then v else Mem.read d r a

/-- Writes one byte and keeps the canonical form. -/
def Mem.write (d : Byte) : Mem → Nat → Byte → Mem
  | [], a, b => if b = d then [] else [(a, b)]
  | (k, v) :: r, a, b =>
    if a < k then (if b = d then (k, v) :: r else (a, b) :: (k, v) :: r)
    else if a = k then (if b = d then r else (a, b) :: r)
    else (k, v) :: Mem.write d r a b

/-- Every address of a memory lies above a bound and they rise strictly, with no entry equal to d. -/
def Mem.wfAbove (d : Byte) : Option Nat → Mem → Bool
  | _, [] => true
  | lo, (k, v) :: r => lo.all (fun l => decide (l < k)) && decide (v ≠ d) && Mem.wfAbove d (some k) r

/-- The canonical form: addresses strictly rising, no entry equal to what an unlisted address reads as. -/
def Mem.wf (d : Byte) (m : Mem) : Bool := Mem.wfAbove d none m

/-- Reads n bytes from an address upward. -/
def Mem.readN (d : Byte) (m : Mem) (a : Nat) : Nat → List Byte
  | 0 => []
  | n + 1 => Mem.read d m a :: Mem.readN d m (a + 1) n

/-- Writes bytes from an address upward. -/
def Mem.writeN (d : Byte) (m : Mem) (a : Nat) : List Byte → Mem
  | [] => m
  | b :: bs => Mem.writeN d (Mem.write d m a b) (a + 1) bs

/-- Writes single cells in their order, as the host writes its own memory. -/
def Mem.apply (d : Byte) (m : Mem) : List Host.Cell → Mem
  | [] => m
  | c :: cs => Mem.apply d (Mem.write d m c.1 c.2) cs

/-- Erases the addresses from lo up to but not including hi: they read d again. -/
def Mem.clear (m : Mem) (lo hi : Nat) : Mem := m.filter fun c => decide (c.1 < lo) || decide (hi ≤ c.1)

/-! ## The part as a whole -/

/-- The part runs: its supplies are up and RESET# is high (R161). -/
def Part.on (p : Part) : Bool := p.pins.powered && !p.pins.resetLow

/-- Host bytes read by the part. -/
def Part.hostRead (p : Part) (a n : Nat) : List Byte := Mem.readN hostBlank p.host a n

/-- Host bytes written by the part. -/
def Part.hostWrite (p : Part) (a : Nat) (bs : List Byte) : Part := { p with host := Mem.writeN hostBlank p.host a bs }

/-- What the host itself has written into its memory. -/
def Part.hostStores (p : Part) (cells : List Host.Cell) : Part := { p with host := Mem.apply hostBlank p.host cells }

/-- A transfer of n bytes at an address stays inside the 64-bit address space (R163). DESIGN CHOICE (log 45): one that would pass its
end fails, as R152 and R154 let a transfer fail. -/
def addressOk (a n : Nat) : Bool := decide (a + n ≤ 2 ^ 64)

/-- The machine with its part changed; the queue of commands stays. -/
def State.mapPart (s : State) (f : Part → Part) : State := { s with part := f s.part }

/-- A command has its effect on the part: there is always a next state. -/
def State.apply (s : State) (f : Part → Part) : Host.Outcome State Fault Refusal := .next (s.mapPart f)

/-! ## Causes -/

/-- The CAUSE bit of a cause (R165, Registers). -/
def Cause.bit : Cause → Nat
  | .sheetDone => 0
  | .bundleWiped => 1
  | .lineState => 2
  | .station => 3
  | .key => 4
  | .conformLost => 5
  | .watchHit => 6
  | .storeFault => 7
  | .exchangeFault => 8
  | .lapsed => 9

/-- The one-bit mask of a cause. -/
def Cause.mask (c : Cause) : BitVec 10 := 1#10 <<< c.bit

/-- Raises a cause: it becomes pending whatever its enable, and stays pending if it was (R156). -/
def Part.raise (p : Part) (c : Cause) : Part := { p with att := { p.att with pending := p.att.pending ||| c.mask } }

/-! ## Stations and entries -/

/-- The place of a station number. -/
def Line.station (l : Line) (n : Nat) : Station := l.stations.getD n .blank

/-- Changes the place of a station number. -/
def Part.modifyStation (p : Part) (n : Nat) (f : Station → Station) : Part :=
  { p with line := { p.line with stations := modifyNth f n p.line.stations } }

/-- The entry with a key. -/
def findKey (es : List Entry) (k : Key) : Option Entry := es.find? fun e => decide (e.key = k)

/-- The entry with a uid. -/
def findUid (es : List Entry) (u : Nat) : Option Entry := es.find? fun e => decide (e.uid = u)

/-- Changes the catalogue's entries. -/
def Part.withEntries (p : Part) (f : List Entry → List Entry) : Part := { p with cat := { p.cat with entries := f p.cat.entries } }

/-- Changes the entry with a uid. -/
def Part.modifyEntry (p : Part) (u : Nat) (f : Entry → Entry) : Part :=
  p.withEntries fun es => es.map fun e => if e.uid = u then f e else e

/-- Ascending order of station, block, format (R15, R16, R21, R130). -/
def keyBefore (a b : Key) : Bool :=
  decide (a.station < b.station) ||
    (a.station == b.station && (decide (a.block < b.block) || (a.block == b.block && decide (a.format ≤ b.format))))

/-- Inserts an entry by its key. -/
def insertByKey (e : Entry) : List Entry → List Entry
  | [] => [e]
  | x :: xs => if keyBefore e.key x.key then e :: x :: xs else x :: insertByKey e xs

/-- The entries in ascending order of station, block, format. -/
def sortByKey (es : List Entry) : List Entry := es.foldr insertByKey []

/-- The key lies in the ranges of R1 (R9). -/
def keyInRange (k : Key) : Bool := decide (k.station ≤ 15) && decide (k.block ≤ 63) && decide (k.format ≤ 31)

/-- The generations an entry holds. -/
def Entry.generations (e : Entry) : List Generation := e.staged.toList ++ e.current.toList ++ e.previous.toList

/-- An entry exists while one of its generations is present (R1). -/
def Entry.exists_ (e : Entry) : Bool := e.staged.isSome || e.current.isSome || e.previous.isSome

/-! ## Units -/

/-- What the store keeps for a unit. -/
def Store.unit (s : Store) (u : Nat) : EraseUnit := s.units.getD u .blank

/-- Changes what the store keeps for a unit. -/
def Store.modify (s : Store) (u : Nat) (f : EraseUnit → EraseUnit) : Store := { s with units := modifyNth f u s.units }

/-- Changes the store. -/
def Part.withStore (p : Part) (f : Store → Store) : Part := { p with store := f p.store }

/-- The bank of a unit: even-numbered units form bank 0 (R105). -/
def bankOf (u : Nat) : Bank := if u % 2 = 0 then .even else .odd

/-- The flash address of a page. -/
def pageAddress (unit page : Nat) : Nat := unit * Config.unitBytes + page * Config.pageBytes

/-- The flash address of a record slot: slot m lies in page m divided by 4 (R108). -/
def slotAddress (unit slot : Nat) : Nat := unit * Config.unitBytes + slot * Config.slotBytes

/-- The 512 bytes of a page. -/
def Store.pageData (s : Store) (unit page : Nat) : List Byte :=
  Mem.readN flashBlank s.flash (pageAddress unit page) Config.pageBytes

/-- The 128 bytes of a slot. -/
def Store.slotData (s : Store) (unit slot : Nat) : List Byte :=
  Mem.readN flashBlank s.flash (slotAddress unit slot) Config.slotBytes

/-- A unit lies in the record area (R110). -/
def Store.isRecord (s : Store) (u : Nat) : Bool := s.recordSize.any fun r => decide (u < r)

/-- A unit lies in the image area, R being known (R110). -/
def Store.isImage (s : Store) (u : Nat) : Bool := s.recordSize.any fun r => decide (r ≤ u ∧ u < Config.unitCount)

/-- The unit numbers. -/
def allUnits : List Nat := List.range Config.unitCount

/-- The bad-unit list: the units whose bad flag is set, in ascending order (R105, R111). -/
def Store.badList (s : Store) : List Nat := allUnits.filter fun u => (s.unit u).bad

/-- The count of FREE image units (R112). -/
def Store.freeCount (s : Store) : Nat := s.units.countP fun u => decide (u.cls = some .free)

/-- The count of units in the bad-unit list (R111). -/
def Store.badCount (s : Store) : Nat := s.units.countP fun u => u.bad

/-- The count of weak units (R124). -/
def Store.weakCount (s : Store) : Nat := s.units.countP fun u => u.weak

/-- A condemned unit: in the bad-unit list and still holding live pages (R112). -/
def EraseUnit.condemned (u : EraseUnit) : Bool := u.bad && decide (0 < u.live)

/-- Raises the reader count of a unit (R115). -/
def Store.pinUnit (s : Store) (u : Nat) : Store := s.modify u fun x => { x with readers := x.readers + 1 }

/-- Lowers the reader count of a unit (R115). -/
def Store.unpinUnit (s : Store) (u : Nat) : Store := s.modify u fun x => { x with readers := x.readers - 1 }

/-- The pages of a new or moved image become live (R114). -/
def Store.addLive (s : Store) (u p : Nat) : Store := s.modify u fun x => { x with live := x.live + p }

/-- Pages stop being live: a FULL unit left with none is pending erase, or BAD if it was condemned (R114). -/
def Store.dropLive (s : Store) (u p : Nat) : Store :=
  s.modify u fun x =>
    let left := x.live - p
    if left = 0 then
      if x.bad then { x with live := 0, cls := some .bad }
      else if x.cls = some .full then { x with live := 0, pending := true }
      else { x with live := 0 }
    else { x with live := left }

/-- Drops the pages of a generation, if there is one (R114). -/
def Store.dropGen (s : Store) : Option Generation → Store
  | none => s
  | some g => s.dropLive g.unit g.pages

/-- The open unit becomes FULL; with no live page it is pending erase in the same act (R113, R114). -/
def Store.fillUnit (s : Store) (u : Nat) : Store :=
  { s.modify u (fun x => { x with cls := some .full, pending := decide (x.live = 0) || x.pending }) with
    openUnit := if s.openUnit = some u then none else s.openUnit }

/-- Enters a unit in the bad-unit list (R111, R112): an image unit becomes BAD, or FULL and condemned with live pages. -/
def Store.markBad (s : Store) (u : Nat) : Store :=
  { s.modify u (fun x =>
      { x with
        bad := true
        pending := false
        cls := if s.isImage u then (if x.live = 0 then some .bad else some .full) else x.cls }) with
    openUnit := if s.openUnit = some u then none else s.openUnit }

/-! ## Bank queues -/

/-- The queue of a bank. -/
def Store.queue (s : Store) : Bank → List BankJob
  | .even => s.bank0
  | .odd => s.bank1

/-- Replaces the queue of a bank. -/
def Store.setQueue (s : Store) (b : Bank) (q : List BankJob) : Store :=
  match b with
  | .even => { s with bank0 := q }
  | .odd => { s with bank1 := q }

/-- The unit an operation works on. -/
def BankOp.unit : BankOp → Nat
  | .readPage u _ => u
  | .programPage u _ _ => u
  | .programSlot u _ _ => u
  | .eraseUnit u => u

/-- Asks the bank that owns the unit for an operation: it joins the tail of the bank's queue (R106). -/
def Store.ask (s : Store) (c : Client) (op : BankOp) : Store :=
  let b := bankOf op.unit
  s.setQueue b (s.queue b ++ [{ client := c, op := op }])

/-! ## What a failed or torn erase leaves -/

/-- The bytes of a unit after a failed or torn erase: those whose place in the mask is true read FFh (R109). -/
def eraseMixture (m : Mem) : Nat → List Bool → Mem
  | _, [] => m
  | a, e :: es => eraseMixture (if e then Mem.write flashBlank m a flashBlank else m) (a + 1) es

end Sys2Proof.Machine
end

