-- ==== Sys2Proof/Machine/Formats.lean ====
section
/-! DEFINITION. The codings and byte layouts of Formats Reference: coded values, finding records, rule records,
listing records, record slots, the status page, the register window (R163 to R165). -/

namespace Sys2Proof.Machine

/-! ## Coded values -/

def DeviceState.value : DeviceState → Nat
  | .mounting => 0
  | .ready => 1
  | .unformatted => 2
  | .formatting => 3

def LineState.value : LineState → Nat
  | .unready => 0
  | .noFormat => 1
  | .running => 2
  | .changeover => 3
  | .settling => 4

def PortState.value : PortState → Nat
  | .disabled => 0
  | .running => 1
  | .waiting => 2
  | .halted => 3

/-- Verdict values; NONE is 0. -/
def Verdict.value : Verdict → Nat
  | .conform => 1
  | .tolerated => 2
  | .unchecked => 3
  | .stale => 4
  | .overridden => 5
  | .malformed => 6
  | .deviant => 7

def StationState.value : StationState → Nat
  | .judged v => v.value
  | .empty => 8
  | .held => 9
  | .undefined => 10

def Decision.value : Decision → Nat
  | .granted => 1
  | .grantedOverride => 2
  | .refused => 3

/-- Completion codes, refusal reasons and grant bases share one 16-bit space. -/
def Code.value : Code → Nat
  | .ok => 0x0000
  | .superseded => 0x0001
  | .notReady => 0x0010
  | .badOrigin => 0x0011
  | .notPermitted => 0x0012
  | .keyOff => 0x0013
  | .frozen => 0x0014
  | .busy => 0x0015
  | .badKind => 0x0016
  | .badState => 0x0017
  | .badKey => 0x0020
  | .badLength => 0x0021
  | .badAddress => 0x0022
  | .badParameter => 0x0023
  | .badRule => 0x0024
  | .noStation => 0x0030
  | .noRuleset => 0x0031
  | .noBaseline => 0x0032
  | .noFormat => 0x0033
  | .wrongState => 0x0034
  | .inUse => 0x0035
  | .bufferShort => 0x0036
  | .catalogueFull => 0x0040
  | .rulesFull => 0x0041
  | .storeFull => 0x0042
  | .counterSpent => 0x0043
  | .transferError => 0x0050
  | .storeFault => 0x0051
  | .baselineDamaged => 0x0052
  | .rulesetFault => 0x0053
  | .baseMalformed => 0x0054
  | .policy => 0x0060
  | .operatorDisabled => 0x0061
  | .windowClosed => 0x0062
  | .overrideDisabled => 0x0063
  | .changeoverActive => 0x0064
  | .recheck => 0x0065
  | .passed => 0x0070
  | .heldOut => 0x0071
  | .override => 0x0072

/-- The kind a sheet's kind byte names; none when it has no owner (R146). -/
def kindOfCode : Nat → Option Kind
  | 0x01 => some .check
  | 0x02 => some .admission
  | 0x10 => some .enrol
  | 0x11 => some .commit
  | 0x12 => some .discard
  | 0x13 => some .revert
  | 0x14 => some .retire
  | 0x15 => some .ruleLoad
  | 0x16 => some .readBaseline
  | 0x17 => some .list
  | 0x18 => some .clearPeaks
  | 0x19 => some .stationDefine
  | 0x1A => some .paramSet
  | 0x1B => some .formatStore
  | 0x20 => some .openChangeover
  | 0x21 => some .closeChangeover
  | 0x22 => some .abandonChangeover
  | 0x23 => some .holdOut
  | 0x24 => some .restore
  | _ => none

/-- The kind byte of a kind. -/
def Kind.code : Kind → Nat
  | .check => 0x01
  | .admission => 0x02
  | .enrol => 0x10
  | .commit => 0x11
  | .discard => 0x12
  | .revert => 0x13
  | .retire => 0x14
  | .ruleLoad => 0x15
  | .readBaseline => 0x16
  | .list => 0x17
  | .clearPeaks => 0x18
  | .stationDefine => 0x19
  | .paramSet => 0x1A
  | .formatStore => 0x1B
  | .openChangeover => 0x20
  | .closeChangeover => 0x21
  | .abandonChangeover => 0x22
  | .holdOut => 0x23
  | .restore => 0x24

/-- Sheet states (Conventions). -/
def sheetBlank : Byte := 0x00#8
def sheetPosted : Byte := 0x01#8
def sheetTaken : Byte := 0x02#8
def sheetDoneByte : Byte := 0x03#8
def sheetCollected : Byte := 0x04#8

/-- "None" of a format or of a rule index is FFh (R163). -/
def orNone (o : Option Nat) : Nat := o.getD 0xFF

def boolNat (b : Bool) : Nat := if b then 1 else 0

/-- A station's byte order as a STATION_DEFINE and a STATION record code it: BIG 1, LITTLE 2. -/
def ByteOrder.value : ByteOrder → Nat
  | .big => 1
  | .little => 2

/-! ## Findings -/

/-- Finding kinds (R165, Finding Record). -/
inductive FindingKind
  | mismatch
  | watch
  | bandOut
  | lengthDiffers
  | bcdBad
  | baseBad
  deriving DecidableEq, Repr

def FindingKind.value : FindingKind → Nat
  | .mismatch => 1
  | .watch => 2
  | .bandOut => 3
  | .lengthDiffers => 4
  | .bcdBad => 5
  | .baseBad => 6

/-- A finding record (R57): its eight items; the flags are bits. -/
structure Finding where
  kind      : FindingKind
  flags     : Byte
  rule      : Option Nat
  width     : Nat
  offset    : Nat
  runLength : Nat
  base      : Nat
  captured  : Nat
  deriving DecidableEq, Repr

/-- The flag bits of a finding (R165, Finding Record). -/
def flagQuadLow : Byte := 0x01#8
def flagLowDiffers : Byte := 0x02#8
def flagHighDiffers : Byte := 0x04#8
def flagTruncated : Byte := 0x08#8
def flagRaw : Byte := 0x10#8
def flagAlsoBad : Byte := 0x20#8

/-- The 16 bytes of a finding record. -/
def Finding.bytes (f : Finding) : List Byte :=
  leBytes 1 f.kind.value ++ [f.flags] ++ leBytes 1 (orNone f.rule) ++ leBytes 1 f.width ++ leBytes 2 f.offset
    ++ leBytes 2 f.runLength ++ leBytes 4 f.base ++ leBytes 4 f.captured

/-- The findings area: the records kept, the places beyond them zero (R58, R148). -/
def findingsArea (fs : List Finding) : List Byte := fillTo 128 0#8 (fs.flatMap Finding.bytes)

/-! ## Rule records -/

/-- Width of a kind's field in bytes (R25). -/
def FieldKind.width : FieldKind → Nat
  | .u8 => 1
  | .s8 => 1
  | .u16 => 2
  | .s16 => 2
  | .u32 => 4
  | .s32 => 4
  | .bcd16 => 2
  | .bcd32 => 4
  | .quad => 8

/-- The kind of a rule record's kind byte. -/
def fieldKindOf : Nat → Option FieldKind
  | 1 => some .u8
  | 2 => some .s8
  | 3 => some .u16
  | 4 => some .s16
  | 5 => some .u32
  | 6 => some .s32
  | 7 => some .bcd16
  | 8 => some .bcd32
  | 9 => some .quad
  | _ => none

/-- A number of 32 bits read as two's complement (R163). -/
def signed32 (v : Nat) : Int := (BitVec.ofNat 32 v).toInt

/-- The policy of a rule record's policy byte, with its band parameters. -/
def policyOf (r : List Byte) : Option Policy :=
  match numAt r 9 1 with
  | 1 => some .exact
  | 2 => some .watch
  | 3 => some (.bandAbs (signed32 (numAt r 12 4)) (signed32 (numAt r 16 4)))
  | 4 => some (.bandRel (numAt r 12 2) (numAt r 16 2))
  | 5 => some .track
  | 6 => some .ignore
  | _ => none

/-- The rule of a 24-byte rule record, where its kind and policy are listed. -/
def ruleOf (r : List Byte) : Option FieldRule :=
  match fieldKindOf (numAt r 8 1), policyOf r with
  | some k, some po =>
    some { lo := numAt r 0 2, hi := numAt r 2 2, mask := BitVec.ofNat 16 (numAt r 4 2), pat := BitVec.ofNat 16 (numAt r 6 2)
           kind := k, policy := po }
  | _, _ => none

/-- The 24-byte records of a rule array of n rules. -/
def ruleRecords (bs : List Byte) : Nat → List (List Byte)
  | 0 => []
  | n + 1 => bs.take 24 :: ruleRecords (bs.drop 24) n

/-- The rules of a rule-set image of n rules. -/
def rulesOf (bs : List Byte) (n : Nat) : List FieldRule := (ruleRecords bs n).filterMap ruleOf

/-! ## Listing records -/

/-- The 12 bytes of one generation of a listing record; zero when absent (R163). -/
def listingGeneration : Option Generation → List Byte
  | none => List.replicate 12 0#8
  | some g => leBytes 4 g.number ++ leBytes 2 g.length ++ leBytes 2 0 ++ leBytes 4 g.crc

/-- The 64 bytes of a listing record (R21). -/
def listingRecord (e : Entry) : List Byte :=
  leBytes 1 e.key.station ++ leBytes 1 e.key.block ++ leBytes 1 e.key.format ++ leBytes 1 e.ruleSet ++ leBytes 4 e.counter
    ++ leBytes 1 (boolNat e.staged.isSome + 2 * boolNat e.current.isSome + 4 * boolNat e.previous.isSome)
    ++ leBytes 1 (boolNat e.damaged) ++ leBytes 1 e.verdict.value ++ leBytes 1 (orNone e.bandPeak.rule) ++ leBytes 4 e.second
    ++ leBytes 2 e.bandPeak.usage ++ leBytes 2 e.bandPeak.offset ++ leBytes 4 e.trackPeak.magnitude
    ++ leBytes 2 e.trackPeak.offset ++ leBytes 2 0
    ++ listingGeneration e.staged ++ listingGeneration e.current ++ listingGeneration e.previous

/-! ## Record slots -/

/-- The 16 bytes of one generation of an ENTRY payload. -/
def slotGeneration : Option Generation → List Byte
  | none => List.replicate 16 0#8
  | some g => leBytes 4 g.number ++ leBytes 2 g.length ++ leBytes 2 g.unit ++ leBytes 1 g.first ++ leBytes 1 g.pages
      ++ leBytes 1 1 ++ leBytes 1 0 ++ leBytes 4 g.crc

/-- The generation of 16 bytes of an ENTRY payload. -/
def slotGenerationOf (bs : List Byte) : Option Generation :=
  if numAt bs 10 1 = 1 then
    some { number := numAt bs 0 4, length := numAt bs 4 2, unit := numAt bs 6 2, first := numAt bs 8 1, pages := numAt bs 9 1
           crc := numAt bs 12 4 }
  else none

def RecordForm.value : RecordForm → Nat
  | .change => 1
  | .relocate => 2

/-- The kind code of a record (R165, Record Slot). -/
def JournalRecord.kindCode : JournalRecord → Nat
  | .entry _ _ => 1
  | .entryGone _ => 2
  | .ruleset _ _ _ => 3
  | .rulesetGone _ => 4
  | .station _ _ => 5
  | .param _ => 6
  | .format _ => 7
  | .bad _ => 8
  | .commitBegin _ _ => 9
  | .commitEnd => 10
  | .snapBegin _ => 11
  | .snapEnd _ => 12

/-- The form byte: CHANGE or RELOCATE for ENTRY and RULESET, 0 for other kinds (R125). -/
def JournalRecord.formCode : JournalRecord → Nat
  | .entry f _ => f.value
  | .ruleset f _ _ => f.value
  | _ => 0

def keyBytes (k : Key) : List Byte := leBytes 1 k.station ++ leBytes 1 k.block ++ leBytes 1 k.format

/-- The payload of a record, from byte 8 of its slot. -/
def JournalRecord.payload : JournalRecord → List Byte
  | .entry _ e => keyBytes e.key ++ leBytes 1 e.ruleSet ++ leBytes 4 e.counter ++ slotGeneration e.staged
      ++ slotGeneration e.current ++ slotGeneration e.previous
  | .entryGone k => keyBytes k
  | .ruleset _ n img => leBytes 1 n ++ leBytes 1 0 ++ leBytes 2 img.unit ++ leBytes 1 img.first ++ leBytes 1 img.pages
      ++ leBytes 2 img.count ++ leBytes 4 img.crc
  | .rulesetGone n => leBytes 1 n
  | .station n s => leBytes 1 n ++ leBytes 1 (boolNat s.defined) ++ leBytes 1 (if s.defined then s.order.value else 0)
      ++ leBytes 1 (boolNat s.heldOut) ++ fillTo 8 0#8 s.name
  | .param ps => leBytes 4 ps.staleness ++ leBytes 1 (boolNat ps.operatorAdmit) ++ leBytes 1 (boolNat ps.override)
  | .format f => leBytes 1 f
  | .bad us => leBytes 1 us.length ++ leBytes 1 0 ++ us.flatMap fun u => leBytes 2 u
  | .commitBegin f n => leBytes 1 f ++ leBytes 1 0 ++ leBytes 2 n
  | .commitEnd => []
  | .snapBegin r => leBytes 1 r
  | .snapEnd n => leBytes 2 n

/-- Bytes 0 to 123 of a record slot. -/
def slotBody (seq : Nat) (r : JournalRecord) : List Byte :=
  leBytes 4 seq ++ leBytes 1 r.kindCode ++ leBytes 1 r.formCode ++ leBytes 2 0 ++ fillTo 116 0#8 r.payload

/-- The 128 bytes of a record slot, its CRC over every byte before the CRC (R125). -/
def slotEncode (seq : Nat) (r : JournalRecord) : List Byte := slotBody seq r ++ leBytes 4 (crc32 (slotBody seq r))

def keyOf (bs : List Byte) (off : Nat) : Key := { station := numAt bs off 1, block := numAt bs (off + 1) 1, format := numAt bs (off + 2) 1 }

def orderOf (v : Nat) : ByteOrder := if v = 2 then .little else .big

def formOf (v : Nat) : Option RecordForm :=
  match v with
  | 1 => some .change
  | 2 => some .relocate
  | _ => none

/-- So many 2-byte unit numbers from an offset. -/
def unitNumbers (bs : List Byte) (off : Nat) : Nat → List Nat
  | 0 => []
  | n + 1 => numAt bs off 2 :: unitNumbers bs (off + 2) n

/-- The record of a slot whose CRC agrees, by its kind code (R126). -/
def recordOf (bs : List Byte) : Option JournalRecord :=
  match numAt bs 4 1 with
  | 1 =>
    (formOf (numAt bs 5 1)).map fun f =>
      .entry f { key := keyOf bs 8, ruleSet := numAt bs 11 1, counter := numAt bs 12 4
                 staged := slotGenerationOf (sliceAt bs 16 16), current := slotGenerationOf (sliceAt bs 32 16)
                 previous := slotGenerationOf (sliceAt bs 48 16) }
  | 2 => some (.entryGone (keyOf bs 8))
  | 3 =>
    (formOf (numAt bs 5 1)).map fun f =>
      .ruleset f (numAt bs 8 1) { unit := numAt bs 10 2, first := numAt bs 12 1, pages := numAt bs 13 1, count := numAt bs 14 2
                                  crc := numAt bs 16 4 }
  | 4 => some (.rulesetGone (numAt bs 8 1))
  | 5 => some (.station (numAt bs 8 1) { defined := decide (numAt bs 9 1 = 1), order := orderOf (numAt bs 10 1)
                                         heldOut := decide (numAt bs 11 1 = 1), name := sliceAt bs 12 8 })
  | 6 => some (.param { staleness := numAt bs 8 4, operatorAdmit := decide (numAt bs 12 1 = 1), override := decide (numAt bs 13 1 = 1) })
  | 7 => some (.format (numAt bs 8 1))
  | 8 => some (.bad (unitNumbers bs 10 (min (numAt bs 8 1) 16)))
  | 9 => some (.commitBegin (numAt bs 8 1) (numAt bs 10 2))
  | 10 => some .commitEnd
  | 11 => some (.snapBegin (numAt bs 8 1))
  | 12 => some (.snapEnd (numAt bs 8 2))
  | _ => none

/-- A valid slot: its CRC agrees with its contents; its sequence number and its record (R125). -/
def slotDecode (bs : List Byte) : Option (Nat × JournalRecord) :=
  if numAt bs 124 4 = crc32 (bs.take 124) then (recordOf bs).map fun r => (numAt bs 0 4, r) else none

/-! ## The status page -/

/-- Where an item lies in the status page (R165, Status Page). -/
def StatusItem.offset : StatusItem → Nat
  | .device => 4
  | .line => 5
  | .active => 6
  | .target => 7
  | .window => 8
  | .epoch => 12
  | .key => 16
  | .conform => 17
  | .gap => 18
  | .completed => 20
  | .free => 24
  | .bad => 26
  | .weak => 28
  | .station n => 32 + 16 * n
  | .counts n => 34 + 16 * n
  | .wipes b => 288 + 4 * b
  | .name n => 544 + 8 * n

/-- The seven judged counts, in the order of the status page. -/
def JudgedCounts.bytes (c : JudgedCounts) : List Byte :=
  leBytes 2 c.conform ++ leBytes 2 c.tolerated ++ leBytes 2 c.unchecked ++ leBytes 2 c.stale ++ leBytes 2 c.overridden
    ++ leBytes 2 c.malformed ++ leBytes 2 c.deviant

/-- The bytes of an item, from the status copy. -/
def StatusCopy.bytes (c : StatusCopy) : StatusItem → List Byte
  | .device => leBytes 1 c.device.value
  | .line => leBytes 1 c.line.value
  | .active => leBytes 1 (orNone c.active)
  | .target => leBytes 1 (orNone c.target)
  | .window => leBytes 4 c.window
  | .epoch => leBytes 4 c.epoch
  | .key => leBytes 1 (boolNat c.key)
  | .conform => leBytes 1 (boolNat c.conform)
  | .gap => leBytes 1 (boolNat c.gap)
  | .completed => leBytes 4 c.completed
  | .free => leBytes 2 c.free
  | .bad => leBytes 2 c.bad
  | .weak => leBytes 2 c.weak
  | .station n => leBytes 1 (c.stations.getD n .reset).state.value
  | .counts n => (c.stations.getD n .reset).counts.bytes
  | .name n => ((c.stations.getD n .reset).name).getD (List.replicate 8 0#8)
  | .wipes b => leBytes 4 (c.wipes.getD b 0)

/-- The items of the status page. Bytes outside them are never written (R143). -/
def statusItems : List StatusItem :=
  [.device, .line, .active, .target, .window, .epoch, .key, .conform, .gap, .completed, .free, .bad, .weak]
    ++ (List.range 16).map .station ++ (List.range 16).map .counts ++ (List.range 64).map .wipes ++ (List.range 16).map .name

end Sys2Proof.Machine
end

