-- ==== Sys2Proof/Machine/Rules.lean ====
section
/-! DEFINITION. Field rules: matching and the claim walk (R26 to R29), reading a field (R30, R41, R42), validation by
RULE_LOAD (R33), and the counts of Rule Memory (R23, R34). -/

namespace Sys2Proof.Machine

/-! ## Matching and the claim walk -/

/-- A rule matches a start offset: in its range, its examined bits as they must be, a multiple of its width (R26). -/
def FieldRule.matches (r : FieldRule) (o : Nat) : Bool :=
  decide (r.lo ≤ o) && decide (o ≤ r.hi) && (BitVec.ofNat 16 o &&& r.mask) == r.pat && o % r.kind.width == 0

/-- The rule of lowest index, counted from i, that matches an offset (R27). -/
def firstMatch : List FieldRule → Nat → Nat → Option (Nat × FieldRule)
  | [], _, _ => none
  | r :: rs, i, o => if r.matches o then some (i, r) else firstMatch rs (i + 1) o

/-- A piece of the walk: a field claimed by a rule of some index, or an uncovered byte (R27). -/
inductive Piece
  | claimed (offset index : Nat) (rule : FieldRule)
  | uncovered (offset : Nat)
  deriving DecidableEq, Repr

/-- The walk from offset o over L bytes: its pieces, and the overruns it counts (R27, R28). -/
def walkFrom (rules : List FieldRule) (L : Nat) : Nat → Nat → List Piece × Nat
  | 0, _ => ([], 0)
  | fuel + 1, o =>
    if o < L then
      match firstMatch rules 0 o with
      | some (i, r) =>
        if o + r.kind.width ≤ L then
          let rest := walkFrom rules L fuel (o + r.kind.width)
          (.claimed o i r :: rest.1, rest.2)
        else
          let rest := walkFrom rules L fuel (o + 1)
          (.uncovered o :: rest.1, rest.2 + 1)
      | none =>
        let rest := walkFrom rules L fuel (o + 1)
        (.uncovered o :: rest.1, rest.2)
    else ([], 0)

/-- The claim walk of an image of L bytes; every step goes forward, so L steps see it whole. -/
def claimWalk (rules : List FieldRule) (L : Nat) : List Piece × Nat := walkFrom rules L L 0

/-- The bytes a piece covers. -/
def Piece.width : Piece → Nat
  | .claimed _ _ r => r.kind.width
  | .uncovered _ => 1

/-! ## Reading a field -/

/-- The number that w bytes at an offset form in the station's byte order (R30). -/
def fieldWord (order : ByteOrder) (bs : List Byte) (off w : Nat) : Nat :=
  match order with
  | .big => beNat (sliceAt bs off w)
  | .little => leNat (sliceAt bs off w)

/-- A word read as so many decimal digits, most significant nibble first; none when a nibble is above 9 (R42). -/
def bcdValue : Nat → Nat → Option Nat
  | 0, _ => some 0
  | d + 1, w => if w % 16 ≤ 9 then (bcdValue d (w / 16)).map fun v => 10 * v + w % 16 else none

/-- A kind is BCD16 or BCD32. -/
def FieldKind.isBcd : FieldKind → Bool
  | .bcd16 => true
  | .bcd32 => true
  | _ => false

/-- The number a field's word stands for, where it is valid: unsigned, two's complement or decimal (R25, R41, R42). -/
def FieldKind.number (k : FieldKind) (w : Nat) : Option Int :=
  match k with
  | .u8 => some w
  | .u16 => some w
  | .u32 => some w
  | .s8 => some (BitVec.ofNat 8 w).toInt
  | .s16 => some (BitVec.ofNat 16 w).toInt
  | .s32 => some (BitVec.ofNat 32 w).toInt
  | .bcd16 => (bcdValue 4 w).map Int.ofNat
  | .bcd32 => (bcdValue 8 w).map Int.ofNat
  | .quad => none

/-- The two halves, high and low, of a QUAD field (R30, R43). -/
def quadHalves (order : ByteOrder) (bs : List Byte) (off : Nat) : Nat × Nat :=
  match order with
  | .big => (beNat (sliceAt bs off 4), beNat (sliceAt bs (off + 4) 4))
  | .little => (leNat (sliceAt bs (off + 4) 4), leNat (sliceAt bs off 4))

/-- A piece that ENROL screens: a BCD field whose policy is not IGNORE, holding a nibble above 9 (R13). -/
def pieceMalformed (order : ByteOrder) (bs : List Byte) : Piece → Option (Nat × Nat)
  | .uncovered _ => none
  | .claimed o i r =>
    if r.kind.isBcd && decide (r.policy ≠ .ignore) && (r.kind.number (fieldWord order bs o r.kind.width)).isNone
    then some (o, i) else none

/-- The lowest malformed BCD field of an image: its offset and rule index (R13). -/
def screenImage (order : ByteOrder) (bs : List Byte) (ps : List Piece) : Option (Nat × Nat) :=
  ps.findSome? (pieceMalformed order bs)

/-! ## Validation -/

/-- The policy is accepted for the kind: QUAD takes EXACT, WATCH and IGNORE only (R25). -/
def policyAccepted (k : FieldKind) (policyCode : Nat) : Bool :=
  match k with
  | .quad => policyCode == 1 || policyCode == 2 || policyCode == 6
  | _ => true

/-- The band parameter bytes are consistent with the policy (R33, reason 9). -/
def bandConsistent (r : List Byte) (policyCode : Nat) : Bool :=
  if policyCode = 3 then decide (signed32 (numAt r 12 4) ≤ signed32 (numAt r 16 4))
  else if policyCode = 4 then decide (numAt r 12 2 ≤ 1000)
  else (sliceAt r 12 8).all fun b => b == 0#8

/-- The reason number of the first test a rule record fails, if it fails one (R33). -/
def ruleReason (r : List Byte) : Option Nat :=
  let lo := numAt r 0 2
  let hi := numAt r 2 2
  let mask := BitVec.ofNat 16 (numAt r 4 2)
  let pat := BitVec.ofNat 16 (numAt r 6 2)
  let pc := numAt r 9 1
  if ¬ (lo ≤ hi ∧ hi ≤ 16383) then some 1
  else if (pat &&& ~~~mask) ≠ 0#16 then some 2
  else
    match fieldKindOf (numAt r 8 1) with
    | none => some 3
    | some k =>
      let low := BitVec.ofNat 16 (k.width - 1)
      if ¬ (1 ≤ pc ∧ pc ≤ 6) then some 4
      else if lo % k.width ≠ 0 then some 5
      else if (pat &&& low) ≠ 0#16 then some 6
      else if (mask &&& low) ≠ low then some 7
      else if ¬ policyAccepted k pc then some 8
      else if ¬ bandConsistent r pc then some 9
      else none

/-- The first rule of an array that fails, counted from i: its index and the reason (R33). -/
def firstBadRule : List (List Byte) → Nat → Option (Nat × Nat)
  | [], _ => none
  | r :: rs, i =>
    match ruleReason r with
    | some reason => some (i, reason)
    | none => firstBadRule rs (i + 1)

/-! ## Rule Memory -/

/-- The rules a set counts for: those of a LOADED set, the recorded count of a FAULTED one (R23). -/
def RuleSet.count : RuleSet → Nat
  | .absent => 0
  | .loaded _ rules => rules.length
  | .faulted img => img.count

/-- The recorded image of a set, if it has one. -/
def RuleSet.image : RuleSet → Option SetImage
  | .absent => none
  | .loaded img _ => some img
  | .faulted img => some img

def RuleSet.isLoaded : RuleSet → Bool
  | .loaded _ _ => true
  | _ => false

/-- A rule set is FAULTED. -/
def RuleSet.isFaulted : RuleSet → Bool
  | .faulted _ => true
  | _ => false

/-- The rules of a set. -/
def RuleSet.rules : RuleSet → List FieldRule
  | .loaded _ rules => rules
  | .absent => []
  | .faulted _ => []

/-- A set of Rule Memory by its number. -/
def ruleSetAt (rules : List RuleSet) (n : Nat) : RuleSet := rules.getD n .absent

/-- Puts a set in the place of a number. -/
def putRuleSet (rules : List RuleSet) (n : Nat) (s : RuleSet) : List RuleSet := modifyNth (fun _ => s) n rules

/-- T of R34: the rules of every set other than the one named. -/
def rulesHeldBeside (rules : List RuleSet) (n : Nat) : Nat := ((putRuleSet rules n .absent).map RuleSet.count).sum

/-- A set with its image at another place; the rules are unaffected (R37). -/
def RuleSet.moved (s : RuleSet) (run : PageRun) : RuleSet :=
  match s with
  | .absent => .absent
  | .loaded img rules => .loaded { img with unit := run.unit, first := run.first, pages := run.pages } rules
  | .faulted img => .faulted { img with unit := run.unit, first := run.first, pages := run.pages }

end Sys2Proof.Machine
end

