-- ==== Sys2Proof/Machine/Compare.lean ====
section
/-! DEFINITION. The comparison of a captured image with its baseline: deviation and the policy tests, band usage and
track magnitude, uncovered bytes and length differences, findings and verdict (R40 to R60). -/

namespace Sys2Proof.Machine

/-- An open run of differing uncovered bytes (R53): where it began, its length, its first bytes from each image. -/
structure DiffRun where
  start    : Nat
  length   : Nat
  base     : List Byte
  captured : List Byte
  deriving DecidableEq, Repr

/-- The counts and measures of a comparison (R40), all zero when it begins. deviates and misreads say which findings,
those beyond the eight kept included, have been made (R55). -/
structure Tally where
  compared  : Nat
  tolerated : Nat
  total     : Nat
  kept      : List Finding
  usage     : Nat
  usageRule : Option Nat
  usageAt   : Nat
  track     : Nat
  trackAt   : Nat
  watch     : Bool
  deviates  : Bool
  misreads  : Bool
  run       : Option DiffRun
  deriving DecidableEq, Repr

def Tally.zero : Tally :=
  { compared := 0, tolerated := 0, total := 0, kept := [], usage := 0, usageRule := none, usageAt := 0, track := 0
    trackAt := 0, watch := false, deviates := false, misreads := false, run := none }

/-- A finding of a BCD field that could not be read (R42). -/
def FindingKind.isMisread : FindingKind → Bool
  | .bcdBad => true
  | .baseBad => true
  | _ => false

/-- Makes a finding: counted up to 65535, the first eight kept (R56). -/
def Tally.find (t : Tally) (f : Finding) : Tally :=
  { t with
    total := min (t.total + 1) 65535
    kept := if t.kept.length < 8 then t.kept ++ [f] else t.kept
    watch := t.watch || f.kind == .watch
    deviates := t.deviates || !f.kind.isMisread
    misreads := t.misreads || f.kind.isMisread }

/-- The finding of a run: at most its first four bytes, the byte at its first offset least significant (R53, R57). -/
def DiffRun.finding (r : DiffRun) : Finding :=
  { kind := .mismatch, flags := if 4 < r.length then flagTruncated else 0#8, rule := none, width := 1, offset := r.start
    runLength := r.length, base := leNat (r.base.take 4), captured := leNat (r.captured.take 4) }

/-- Ends the open run, if there is one, with its finding (R53). -/
def Tally.endRun (t : Tally) : Tally :=
  match t.run with
  | none => t
  | some r => { t with run := none }.find r.finding

/-- An uncovered byte: equal, it ends the run; differing, it begins or continues one (R53). -/
def Tally.uncovered (t : Tally) (o : Nat) (b c : Byte) : Tally :=
  if b = c then t.endRun
  else
    match t.run with
    | none => { t with run := some { start := o, length := 1, base := [b], captured := [c] } }
    | some r =>
      { t with run := some { r with length := r.length + 1, base := r.base ++ [b], captured := r.captured ++ [c] } }

/-- A value as a finding record gives it: 32 bits, signed values in two's complement (R57). -/
def value32 (v : Int) : Nat := (BitVec.ofInt 32 v).toNat

/-- The allowance of a BAND_REL field (R47): |B| × P / 1000, rounded down, plus F, saturated. -/
def allowance (b : Int) (permille floor : Nat) : Nat := min (b.natAbs * permille / 1000 + floor) top32

/-- The allowance that band usage is measured against under BAND_ABS (R51): the bound on the side of D. -/
def absAllowance (lo hi d : Int) : Nat :=
  if 0 < d then hi.toNat else if d < 0 then (-lo).toNat else (min hi (-lo)).toNat

/-- Band usage in thousandths (R51). -/
def bandUsage (d : Int) (a : Nat) : Nat :=
  if d = 0 then 0 else if a = 0 then 65535 else min (d.natAbs * 1000 / a) 65535

/-- The band usage of a field under a policy that has one (R51). -/
def Policy.usage (po : Policy) (b d : Int) : Option Nat :=
  match po with
  | .bandAbs lo hi => some (bandUsage d (absAllowance lo hi d))
  | .bandRel p f => some (bandUsage d (allowance b p f))
  | _ => none

/-- The policy test on a deviation (R45, R46, R48, R49). -/
def Policy.passes (po : Policy) (b d : Int) : Bool :=
  match po with
  | .exact => decide (d = 0)
  | .watch => decide (d = 0)
  | .bandAbs lo hi => decide (lo ≤ d ∧ d ≤ hi)
  | .bandRel p f => decide (d.natAbs ≤ allowance b p f)
  | .track => true
  | .ignore => true

/-- The finding a field makes when it fails its test (R45, R46, R48). -/
def Policy.failure : Policy → FindingKind
  | .watch => .watch
  | .bandAbs _ _ => .bandOut
  | .bandRel _ _ => .bandOut
  | _ => .mismatch

/-- A policy under which a passing field with a deviation counts as tolerated (R50). -/
def Policy.tolerates : Policy → Bool
  | .bandAbs _ _ => true
  | .bandRel _ _ => true
  | .track => true
  | _ => false

/-- Offers a field's band usage: the greatest, of the lowest offset (R52). -/
def Tally.offerUsage (t : Tally) (u : Option Nat) (index offset : Nat) : Tally :=
  match u with
  | none => t
  | some u =>
    if t.usageRule = none ∨ t.usage < u then { t with usage := u, usageRule := some index, usageAt := offset } else t

/-- Offers a TRACK field's magnitude: the greatest, of the lowest offset (R52). -/
def Tally.offerTrack (t : Tally) (po : Policy) (d : Int) (offset : Nat) : Tally :=
  if po = .track ∧ t.track < d.natAbs then { t with track := d.natAbs, trackAt := offset } else t

/-- A numeric field whose two values are valid is put to its policy test (R44 to R52). -/
def Tally.test (t : Tally) (o i : Nat) (r : FieldRule) (b c : Int) : Tally :=
  let d := c - b
  let pass := r.policy.passes b d
  let t := { t with
    compared := t.compared + 1
    tolerated := if pass && r.policy.tolerates && decide (d ≠ 0) then t.tolerated + 1 else t.tolerated }
  let t := (t.offerUsage (r.policy.usage b d) i o).offerTrack r.policy d o
  if pass then t
  else t.find { kind := r.policy.failure, flags := 0#8, rule := some i, width := r.kind.width, offset := o
                runLength := r.kind.width, base := value32 b, captured := value32 c }

/-- The finding of a field whose baseline or captured word is malformed (R42, R57). -/
def misread (kind : FindingKind) (flags : Byte) (o i w b c : Nat) : Finding :=
  { kind := kind, flags := flags, rule := some i, width := w, offset := o, runLength := w, base := b, captured := c }

/-- A field of a numeric kind: its two words are formed and read, then tested (R41, R42). -/
def Tally.numeric (t : Tally) (order : ByteOrder) (base cap : List Byte) (o i : Nat) (r : FieldRule) : Tally :=
  let w := r.kind.width
  let wb := fieldWord order base o w
  let wc := fieldWord order cap o w
  match r.kind.number wb, r.kind.number wc with
  | some b, some c => t.test o i r b c
  | some _, none => t.find (misread .bcdBad flagRaw o i w wb wc)
  | none, some _ => t.find (misread .baseBad flagRaw o i w wb wc)
  | none, none => t.find (misread .baseBad (flagRaw ||| flagAlsoBad) o i w wb wc)

/-- A QUAD field: the low halves compared first, then the high halves (R43). -/
def Tally.quad (t : Tally) (order : ByteOrder) (base cap : List Byte) (o i : Nat) (r : FieldRule) : Tally :=
  let hb := quadHalves order base o
  let hc := quadHalves order cap o
  let t := { t with compared := t.compared + 1 }
  if hb = hc then t
  else
    t.find { kind := r.policy.failure
             flags := flagQuadLow ||| (if hb.2 = hc.2 then 0#8 else flagLowDiffers) ||| (if hb.1 = hc.1 then 0#8 else flagHighDiffers)
             rule := some i, width := 8, offset := o, runLength := 8, base := hb.2, captured := hc.2 }

/-- One piece of the walk (R40). -/
def Tally.piece (order : ByteOrder) (base cap : List Byte) (t : Tally) : Piece → Tally
  | .uncovered o => t.uncovered o (base.getD o 0#8) (cap.getD o 0#8)
  | .claimed o i r =>
    if r.policy = .ignore then t.endRun
    else if r.kind = .quad then t.endRun.quad order base cap o i r
    else t.endRun.numeric order base cap o i r

/-- The LENGTH finding, when the two lengths differ (R54). -/
def Tally.lengths (t : Tally) (lb lc : Nat) : Tally :=
  if lb = lc then t
  else t.find { kind := .lengthDiffers, flags := 0#8, rule := none, width := 0, offset := min lb lc
                runLength := max lb lc - min lb lc, base := lb, captured := lc }

/-- The comparison of two whole images under a rule copy and a byte order, with the overruns of its walk (R40). -/
def compareImages (rules : List FieldRule) (order : ByteOrder) (base cap : List Byte) : Tally × Nat :=
  let walk := claimWalk rules (min base.length cap.length)
  ((walk.1.foldl (Tally.piece order base cap) .zero).endRun.lengths base.length cap.length, walk.2)

/-- The verdict, the conditions tested from the top down (R55). -/
def Tally.verdict (t : Tally) : Verdict :=
  if t.deviates then .deviant else if t.misreads then .malformed else if 0 < t.tolerated then .tolerated else .conform

/-- The result summary of a comparison, item by item (R58); verdict none is NONE. -/
structure Summary where
  verdict     : Option Verdict
  format      : Option Nat
  generation  : Nat
  baseLength  : Nat
  capLength   : Nat
  compared    : Nat
  tolerated   : Nat
  total       : Nat
  overruns    : Nat
  usage       : Nat
  usageRule   : Option Nat
  usageAt     : Nat
  track       : Nat
  trackAt     : Nat
  captureCrc  : Nat
  baselineCrc : Nat
  findings    : List Finding
  deriving DecidableEq, Repr

/-- The summary with nothing reached: every item zero or none (R58, R163). -/
def Summary.blank : Summary :=
  { verdict := none, format := none, generation := 0, baseLength := 0, capLength := 0, compared := 0, tolerated := 0, total := 0
    overruns := 0, usage := 0, usageRule := none, usageAt := 0, track := 0, trackAt := 0, captureCrc := 0, baselineCrc := 0
    findings := [] }

/-- The summary of a request that ends before its comparison begins: no verdict, every count and measure 0, no finding (R58), and as
format used the format of the entry that lookup found, if it found one (R65). DEDUCED (log 18): the generation compared, the lengths
and the CRCs are 0 in it. -/
def Summary.uncompared (found : Option Key) : Summary := { Summary.blank with format := found.map Key.format }

/-- The items of a summary at their places in the sheet (R165, Result area of CHECK and ADMIT). -/
def Summary.items (s : Summary) : List (Nat × List Byte) :=
  [(64, leBytes 1 ((s.verdict.map Verdict.value).getD 0)), (65, leBytes 1 (orNone s.format)), (66, leBytes 1 s.findings.length),
   (68, leBytes 4 s.generation), (72, leBytes 2 s.baseLength), (74, leBytes 2 s.capLength), (76, leBytes 2 s.compared),
   (78, leBytes 2 s.tolerated), (80, leBytes 2 s.total), (82, leBytes 2 s.overruns), (84, leBytes 2 s.usage),
   (86, leBytes 1 (orNone s.usageRule)), (88, leBytes 2 s.usageAt), (90, leBytes 2 s.trackAt), (92, leBytes 4 s.track),
   (96, leBytes 4 s.captureCrc), (100, leBytes 4 s.baselineCrc)]

end Sys2Proof.Machine
end

