-- ==== Sys2Proof/Machine/Status.lean ====
section
/-! DEFINITION. The status copy and the hand-overs that keep it (R104, R124, R151). -/

namespace Sys2Proof.Machine

/-- The window remaining: deadline minus present second in CHANGEOVER and SETTLING, else 0 (R94). -/
def Line.windowRemaining (l : Line) : Nat :=
  match l.state, l.deadline with
  | .changeover, some d => d - l.seconds
  | .settling, some d => d - l.seconds
  | _, _ => 0

/-- A station as the status page shows it (R104). -/
def Station.view (s : Station) : StationView :=
  { state := s.state, counts := s.counts, name := if s.defined then some s.name else none }

/-- The items of R151 as the blocks hold them now. -/
def statusNow (p : Part) : StatusCopy :=
  { device := p.device, line := p.line.state, active := p.line.active, target := p.line.target
    window := p.line.windowRemaining, epoch := p.line.epoch, key := p.key.level, conform := p.line.conform, gap := p.gap
    completed := p.port.completed, free := p.store.freeCount, bad := p.store.badCount, weak := p.store.weakCount
    stations := p.line.stations.map Station.view, wipes := p.port.bundles.map Bundle.wipes }

/-- The items whose bytes differ between two copies. -/
def changedItems (old new : StatusCopy) : List StatusItem := statusItems.filter fun i => decide (old.bytes i ≠ new.bytes i)

/-- Adds items to those waiting to be written, each once. -/
def addItems (waiting new : List StatusItem) : List StatusItem := waiting ++ new.filter fun i => decide (i ∉ waiting)

/-- The blocks hand over every item that has changed; the port takes them into its copy whatever its state, and gathers
them for the next update while it is RUNNING or WAITING (R151). -/
def handOver (p : Part) : Part :=
  let new := statusNow p
  { p with port :=
      { p.port with
        copy := new
        changed := if p.port.state = .running ∨ p.port.state = .waiting
          then addItems p.port.changed (changedItems p.port.copy new) else p.port.changed } }

end Sys2Proof.Machine
end

