-- ==== Sys2Proof/Machine/Line.lean ====
section
/-! DEFINITION. The Line Controller: required sets and station states (R7, R90, R91), the line state and its passages
(R92 to R99), staleness (R101), the CONFORM output (R103), and what it does with each entry's verdict and peaks. -/

namespace Sys2Proof.Machine

/-! ## Required sets and station states -/

/-- The comparison format: F in RUNNING, G in CHANGEOVER and SETTLING, else none (R90, R92). -/
def Line.comparison (l : Line) : Option Nat :=
  match l.state with
  | .running => l.active
  | .changeover => l.target
  | .settling => l.target
  | .noFormat => none
  | .unready => none

/-- Some entry of the key has a current generation. -/
def hasCurrent (es : List Entry) (k : Key) : Bool := es.any fun e => decide (e.key = k) && e.current.isSome

/-- An entry would belong to the required set of G if its station were defined and not held out: it has a current
generation, and its format is G, or COMMON with no current entry of G for the same station and block (R7, R90). -/
def judgedIn (es : List Entry) (G : Nat) (e : Entry) : Bool :=
  e.current.isSome &&
    (e.key.format == G ||
      (e.key.format == Config.common && !hasCurrent es { station := e.key.station, block := e.key.block, format := G }))

/-- An entry belongs to the required set of G (R7). -/
def requiredIn (p : Part) (G : Nat) (e : Entry) : Bool :=
  judgedIn p.cat.entries G e && (p.line.station e.key.station).defined && !(p.line.station e.key.station).heldOut

/-- The required set of G (R7). -/
def requiredSet (p : Part) (G : Nat) : List Entry := p.cat.entries.filter (requiredIn p G)

/-- A verdict as the station sees it: one stored under another epoch counts as UNCHECKED (R90). -/
def seenVerdict (epoch : Nat) (e : Entry) : Verdict := if e.epoch = epoch then e.verdict else .unchecked

/-- Severity, from least to worst (R90). -/
def Verdict.rank : Verdict → Nat
  | .conform => 0
  | .tolerated => 1
  | .unchecked => 2
  | .stale => 3
  | .overridden => 4
  | .malformed => 5
  | .deviant => 6

/-- The worse of two verdicts (R90). -/
def Verdict.worse (a b : Verdict) : Verdict := if a.rank < b.rank then b else a

/-- The judged entries of a station in the comparison format: those that would be required were it not held out (R90). -/
def judgedEntries (p : Part) (n : Nat) : List Entry :=
  match p.line.comparison with
  | none => []
  | some G =>
    if (p.line.station n).defined then p.cat.entries.filter fun e => decide (e.key.station = n) && judgedIn p.cat.entries G e
    else []

/-- The state of a station: UNDEFINED, HELD, EMPTY, or its worst verdict (R90). -/
def stationStateOf (p : Part) (n : Nat) : StationState :=
  let s := p.line.station n
  if !s.defined then .undefined
  else if s.heldOut then .held
  else
    match (judgedEntries p n).map (seenVerdict p.line.epoch) with
    | [] => .empty
    | v :: vs => .judged (vs.foldl Verdict.worse v)

/-- The judged counts of a station (R90). -/
def judgedCountsOf (p : Part) (n : Nat) : JudgedCounts :=
  let vs := (judgedEntries p n).map (seenVerdict p.line.epoch)
  { conform := vs.count .conform, tolerated := vs.count .tolerated, unchecked := vs.count .unchecked, stale := vs.count .stale
    overridden := vs.count .overridden, malformed := vs.count .malformed, deviant := vs.count .deviant }

/-- A passing station state (R90). -/
def StationState.passing : StationState → Bool
  | .judged .conform => true
  | .judged .tolerated => true
  | .judged _ => false
  | .empty => true
  | .held => true
  | .undefined => true

/-- Every station state is passing, and the required set of G holds at least one entry (R96). -/
def allPass (p : Part) (G : Nat) : Bool :=
  !(requiredSet p G).isEmpty && p.line.stations.all fun s => s.state.passing

/-- The CONFORM condition (R103). -/
def conformCondition (p : Part) : Bool :=
  match p.line.state, p.line.active with
  | .running, some F => allPass p F
  | _, _ => false

/-- Every station with its state and counts computed afresh. -/
def judgeStations (p : Part) : List Station :=
  (List.range p.line.stations.length).map fun n =>
    { p.line.station n with state := stationStateOf p n, counts := judgedCountsOf p n }

/-- Drives CONFORM to its condition; passing from asserted to deasserted raises CONFORM_LOST (R103). -/
def driveConform (p : Part) : Part :=
  let c := conformCondition p
  let p' := { p with line := { p.line with conform := c } }
  if p.line.conform && !c then p'.raise .conformLost else p'

/-- Station states and counts afresh, CONFORM, the hand-over: the recomputation of R91 without its STATION causes. -/
def settleStations (p : Part) : Part := handOver (driveConform { p with line := { p.line with stations := judgeStations p } })

/-- The recomputation of R91: station states and counts afresh, STATION for a changed state, CONFORM, the hand-over. -/
def recompute (p : Part) : Part :=
  let stations := judgeStations p
  let p' := { p with line := { p.line with stations := stations } }
  let p' := if stations.map Station.state = p.line.stations.map Station.state then p' else p'.raise .station
  handOver (driveConform p')

/-! ## Verdicts and peaks -/

/-- Writes a verdict with the present second and epoch (R4). -/
def stampVerdict (l : Line) (v : Verdict) (e : Entry) : Entry := { e with verdict := v, second := l.seconds, epoch := l.epoch }

/-- Returns verdicts to UNCHECKED for the entries that satisfy a test. -/
def uncheck (p : Part) (which : Entry → Bool) : Part :=
  p.withEntries fun es => es.map fun e => if which e then stampVerdict p.line .unchecked e else e

/-- Empties the peaks of an entry (R4). -/
def Entry.emptyPeaks (e : Entry) : Entry := { e with bandPeak := .zero, trackPeak := .zero }

/-- A verdict that ages: CONFORM or TOLERATED (R101). -/
def Verdict.ages : Verdict → Bool
  | .conform => true
  | .tolerated => true
  | _ => false

/-- The second at which an entry's verdict falls due (R94, R101). -/
def staleDue (l : Line) (e : Entry) : Nat := satAdd e.second l.params.staleness

/-- An entry whose verdict has fallen due; verdicts do not age outside RUNNING (R101). -/
def fallenDue (l : Line) (e : Entry) : Bool :=
  decide (l.state = .running) && e.verdict.ages && decide (staleDue l e ≤ l.seconds)

/-- The ageing restart: every CONFORM and TOLERATED verdict takes the present second (R101). -/
def restartAgeing (p : Part) : Part :=
  p.withEntries fun es => es.map fun e => if e.verdict.ages then { e with second := p.line.seconds } else e

/-! ## Passages of the line state -/

/-- Sets a persistence mark (R100). -/
def markFormat (p : Part) : Part := { p with line := { p.line with formatMark := .marked } }

/-- The line enters RUNNING in its target format (R96): F becomes G, the deadline is removed, the FORMAT mark is set,
the ageing restart is applied, LINE_STATE is raised. -/
def enterRunning (p : Part) : Part :=
  restartAgeing (markFormat
    { p with line := { p.line with state := .running, active := p.line.target, target := none, deadline := none } })
    |>.raise .lineState

/-- The test of R97, at a recorded verdict while SETTLING. -/
def settlingTest (p : Part) : Part :=
  match p.line.state, p.line.target with
  | .settling, some G => if allPass p G then recompute (enterRunning p) else p
  | _, _ => p

/-- What a recorded verdict brings about: the recomputation, and in SETTLING the all-pass test (R91, R97). -/
def afterRecording (p : Part) : Part := settlingTest (recompute p)

/-- The window deadline of a changeover opened now (R94). -/
def windowDeadline (l : Line) (length : Nat) : Nat := satAdd l.seconds length

/-- A number brought into a range. -/
def clampTo (lo hi v : Nat) : Nat := if v < lo then lo else if hi < v then hi else v

/-- OPEN_CHANGEOVER carried out (R95). -/
def openLine (p : Part) (G window : Nat) : Part :=
  let p := { p with line := { p.line with target := some G, epoch := p.line.epoch + 1 } }
  let p := uncheck p fun _ => true
  let p := { p with line := { p.line with state := .changeover, deadline := some (windowDeadline p.line window) } }
  (recompute p).raise .lineState

/-- CLOSE_CHANGEOVER carried out in CHANGEOVER (R96). -/
def closeLine (p : Part) : Part :=
  match p.line.target with
  | some G => if allPass p G then recompute (enterRunning p) else (recompute { p with line := { p.line with state := .settling } }).raise .lineState
  | none => (recompute { p with line := { p.line with state := .settling } }).raise .lineState

/-- The window expires (R98). -/
def expireWindow (p : Part) : Part := recompute ((enterRunning p).raise .lapsed)

/-- ABANDON_CHANGEOVER carried out (R99). -/
def abandonLine (p : Part) : Part :=
  let p := { p with line :=
    { p.line with
      deadline := none, target := none, epoch := p.line.epoch + 1
      state := if p.line.active.isSome then .running else .noFormat } }
  (recompute (uncheck p fun _ => true)).raise .lineState

/-- The stations whose state is not passing (R96). -/
def notPassing (p : Part) : Nat := p.line.stations.countP fun s => !s.state.passing

/-- Sets a station's held-out flag and its persistence mark (R88, R89, R100). -/
def holdStation (p : Part) (n : Nat) (held : Bool) : Part :=
  p.modifyStation n fun s => { s with heldOut := held, mark := .marked }

/-- RESTORE carried out (R89). -/
def restoreStation (p : Part) (n : Nat) : Part :=
  recompute (uncheck (holdStation p n false) fun e => decide (e.key.station = n))

/-- One entry's verdict falls due and becomes STALE (R101). -/
def expireVerdict (p : Part) (k : Key) : Part :=
  recompute (p.withEntries fun es => es.map fun e =>
    if e.key = k ∧ fallenDue p.line e then stampVerdict p.line .stale e else e)

/-- The Line Controller takes new parameters: verdicts whose age reaches the new limit become STALE at once in RUNNING (R101, R102). -/
def takeParams (p : Part) (ps : Params) : Part :=
  let p := { p with line := { p.line with params := ps } }
  recompute (p.withEntries fun es => es.map fun e => if fallenDue p.line e then stampVerdict p.line .stale e else e)

/-- A second passes: the timebase rises up to FFFFFFFFh, and the window remaining is handed over (R94). -/
def tickSecond (p : Part) : Part := handOver { p with line := { p.line with seconds := satAdd p.line.seconds 1 } }

end Sys2Proof.Machine
end

