-- ==== Sys2Proof/Machine/Operands.lean ====
section
/-! DEFINITION. The parameters of a request, read from bytes 8 to 63 of its sheet as Formats Reference lays them out
for each kind, and the sheet as the port reads it. -/

namespace Sys2Proof.Machine

/-- The little-endian number of n bytes at a sheet offset of 8 or above. -/
def Request.num (r : Request) (off n : Nat) : Nat := numAt r.params (off - 8) n

/-- A key coded as three bytes: station, block, format (R165, Parameters). -/
def Request.keyAt (r : Request) (off : Nat) : Key :=
  { station := r.num off 1, block := r.num (off + 1) 1, format := r.num (off + 2) 1 }

/-- The QUIET flag: bit 0 of the flags byte (R148). -/
def Request.quiet (r : Request) : Bool := r.flags.getLsbD 0

/-- The origin is 1, 2 or 3 (R75). -/
def Request.originValid (r : Request) : Bool := decide (1 ≤ r.origin.toNat ∧ r.origin.toNat ≤ 3)

def Request.supervisor (r : Request) : Bool := r.origin == 1#8
def Request.engineer (r : Request) : Bool := r.origin == 2#8
def Request.operator (r : Request) : Bool := r.origin == 3#8

/-! ## CHECK, ADMIT -/

def Request.station (r : Request) : Nat := r.num 8 1
def Request.block (r : Request) : Nat := r.num 9 1
/-- The CHECK format selector; FFh is ACTIVE (R164). -/
def Request.selector (r : Request) : Nat := r.num 10 1
def Request.length (r : Request) : Nat := r.num 12 4
def Request.address (r : Request) : Nat := r.num 16 8

/-- A CHECK that takes the comparison format of the line: an ADMIT always does (R65). -/
def Request.active (r : Request) : Bool := decide (r.kind = .admission) || decide (r.selector = 0xFF)

/-! ## The other kinds -/

/-- The key of ENROL, REVERT, RETIRE and READ_BASELINE. -/
def Request.key (r : Request) : Key := r.keyAt 8
/-- The rule set of ENROL. -/
def Request.enrolRuleSet (r : Request) : Nat := r.num 11 1
/-- The format of COMMIT and DISCARD. -/
def Request.format (r : Request) : Nat := r.num 8 1
/-- The choice of generation of READ_BASELINE: STAGED 1, CURRENT 2, PREVIOUS 3. -/
def Request.generation (r : Request) : Nat := r.num 11 1
/-- The capacity of READ_BASELINE, in bytes. -/
def Request.capacity (r : Request) : Nat := r.num 12 4
def Request.listStation (r : Request) : Nat := r.num 8 1
def Request.listBlock (r : Request) : Nat := r.num 9 1
def Request.listFormat (r : Request) : Nat := r.num 10 1
def Request.listSkip (r : Request) : Nat := r.num 12 2
def Request.listCapacity (r : Request) : Nat := r.num 14 2
/-- The choice of CLEAR_PEAKS: KEY 0, ALL 1; and its key. -/
def Request.peaksChoice (r : Request) : Nat := r.num 8 1
def Request.peaksKey (r : Request) : Key := r.keyAt 9
def Request.loadSet (r : Request) : Nat := r.num 8 1
def Request.loadCount (r : Request) : Nat := r.num 10 2
def Request.defineStation (r : Request) : Nat := r.num 8 1
/-- The action of STATION_DEFINE: DEFINE 1, UNDEFINE 2. -/
def Request.defineAction (r : Request) : Nat := r.num 9 1
def Request.defineOrder (r : Request) : Nat := r.num 10 1
def Request.defineName (r : Request) : List Byte := sliceAt r.params 4 8
def Request.staleness (r : Request) : Nat := r.num 8 4
def Request.operatorAdmit (r : Request) : Nat := r.num 12 1
def Request.overrideParam (r : Request) : Nat := r.num 13 1
/-- The record area FORMAT_STORE asks for; 0 is the default. -/
def Request.recordArea (r : Request) : Nat := r.num 8 1
def Request.targetFormat (r : Request) : Nat := r.num 8 1
def Request.window (r : Request) : Nat := r.num 12 4

/-! ## The sheet -/

/-- The request of a sheet's 256 bytes, for a kind that has an owner (R146). -/
def requestOf (bs : List Byte) (kind : Kind) (bundle sheet : Nat) (keyOn : Bool) (enablement : Nat) : Request :=
  { bundle := bundle, sheet := sheet, kind := kind, origin := bs.getD 2 0#8, flags := bs.getD 3 0#8
    tag := BitVec.ofNat 16 (numAt bs 4 2), keyOn := keyOn, enablement := enablement, params := sliceAt bs 8 56 }

/-- Bytes 0 to 63 of a posted sheet: state, kind, origin, flags, tag, no code, parameters (R141). -/
def postedSheet (kind : Kind) (head : SheetHead) (params : List (Nat × List Byte)) : List Byte :=
  layout 64 ([(0, [sheetPosted]), (1, leBytes 1 kind.code), (2, [head.origin]), (3, [head.flags]), (4, leBytes 2 head.tag.toNat)]
    ++ params)

/-- A result area of 64 bytes: the items at their sheet offsets, all else zero (R163). -/
def resultArea (items : List (Nat × List Byte)) : List Byte := layout 64 (items.map fun it => (it.1 - 64, it.2))

/-- The result area of a request that reports nothing. -/
def emptyResult : List Byte := resultArea []

end Sys2Proof.Machine
end

