-- ==== Sys2Proof/Machine/Store.lean ====
section
/-! DEFINITION. What the Baseline Store does for the Catalogue Unit: the effect of each finished operation (R107 to R109),
placement (R113), the images that live in a unit and where they go (R3, R37, R114, R119), the choice of a unit to
reclaim and the run flag (R117, R118). -/

namespace Sys2Proof.Machine

/-! ## Finished operations -/

/-- A page has been programmed with some bytes: the count rises past it, the mode is IMAGE (R108). -/
def Store.pageProgrammed (s : Store) (u page : Nat) (bytes : List Byte) : Store :=
  { s.modify u (fun x => { x with pages := page + 1, mode := .image }) with
    flash := Mem.writeN flashBlank s.flash (pageAddress u page) (bytes.take Config.pageBytes) }

/-- A slot has been programmed with some bytes: slots m+1, pages m/4+1, mode RECORD (R108). -/
def Store.slotProgrammed (s : Store) (u slot : Nat) (bytes : List Byte) : Store :=
  { s.modify u (fun x => { x with slots := slot + 1, pages := slot / 4 + 1, mode := .record }) with
    flash := Mem.writeN flashBlank s.flash (slotAddress u slot) (bytes.take Config.slotBytes) }

/-- A unit has been erased (R109): every byte FFh, no mode, no page, flags and marks clear; an image unit is FREE. -/
def Store.unitErased (s : Store) (u : Nat) : Store :=
  { s.modify u (fun x =>
      { x with
        mode := .erased, pages := 0, slots := 0, live := 0, weak := false, pending := false, skip := false, passed := false
        cls := if s.isImage u then some .free else x.cls }) with
    flash := Mem.clear s.flash (u * Config.unitBytes) ((u + 1) * Config.unitBytes)
    openUnit := if s.openUnit = some u then none else s.openUnit }

/-- An erase has failed: some of the bytes are erased, and the unit enters the bad-unit list (R109, R111). DEDUCED (log 22): the unit's
mode and its counts of programmed pages and slots stay, whatever was erased. -/
def Store.eraseFailed (s : Store) (u : Nat) (erased : List Bool) : Store :=
  { s.markBad u with flash := eraseMixture s.flash (u * Config.unitBytes) (erased.take Config.unitBytes) }

/-- The outcomes of a page read by its bits in error (R107): beyond 8 it is uncorrectable. -/
def readable (errors : Nat) : Bool := decide (errors ≤ 8)

/-- A page has not been programmed since the unit's last erase: the bank reports it as erased (R107). -/
def Store.readsErased (s : Store) (u page : Nat) : Bool := decide ((s.unit u).pages ≤ page)

/-- The bits in error that a read of a page meets: none where the page is erased (R107). -/
def Store.pageErrors (s : Store) (u page errors : Nat) : Nat := if s.readsErased u page then 0 else errors

/-- A heavy correction, 6 to 8 bits in error, sets the unit's weak flag (R107). -/
def Store.noteRead (s : Store) (u errors : Nat) : Store :=
  if 6 ≤ errors ∧ errors ≤ 8 then s.modify u fun x => { x with weak := true } else s

/-! ## Candidates for reclaim -/

/-- A weak candidate (R118): OPEN or FULL, with a live page. -/
def EraseUnit.weakCandidate (u : EraseUnit) : Bool :=
  !u.condemned && !u.skip && !u.passed && u.weak && (u.cls == some .opened || u.cls == some .full) && decide (0 < u.live)

/-- A FULL candidate (R118): fewer than 32 live pages. -/
def EraseUnit.fullCandidate (u : EraseUnit) : Bool :=
  !u.condemned && !u.skip && !u.passed && u.cls == some .full && decide (u.live < Config.pagesPerUnit)

/-- The unit with fewer live pages, the first given among equals (R118). -/
def fewerLive (s : Store) (best : Option Nat) (u : Nat) : Option Nat :=
  match best with
  | none => some u
  | some b => if (s.unit u).live < (s.unit b).live then some u else some b

/-- The unit a reclaim step would choose (R118). -/
def candidate (s : Store) : Option Nat :=
  match allUnits.find? fun u => (s.unit u).weakCandidate with
  | some u => some u
  | none => (allUnits.filter fun u => (s.unit u).fullCandidate).foldl (fewerLive s) none

/-- Chooses a unit, passing over units without live pages that are pinned (R118). -/
def pickUnit : Nat → Store → Option Nat × Store
  | 0, s => (none, s)
  | n + 1, s =>
    match candidate s with
    | none => (none, s)
    | some u =>
      if (s.unit u).live = 0 ∧ 0 < (s.unit u).readers then pickUnit n (s.modify u fun x => { x with passed := true })
      else (some u, s)

/-- Clears the run flag, and with it every passed-over mark (R118). -/
def Store.stopRun (s : Store) : Store := { s with runFlag := false, units := s.units.map fun x => { x with passed := false } }

/-- The test of the run flag (R117), made whenever the FREE count changes and between requests. DESIGN CHOICE (log 50): one test makes one
change of the flag at most, so with FREE below 16 and no candidate successive tests set it and clear it in turn. -/
def reclaimTest (p : Part) : Part :=
  if p.device = .ready then
    if p.store.runFlag then
      if Config.reclaimStop ≤ p.store.freeCount ∨ candidate p.store = none then p.withStore Store.stopRun else p
    else if p.store.freeCount < Config.reclaimStart then p.withStore fun s => { s with runFlag := true }
    else p
  else p

/-- Where the FREE count differs from what it was, the run flag is tested (R117) and the counts are handed over at once (R109, R112,
R124), so that a count that goes up and down again within one act of the Catalogue Unit is in the next update (R151). -/
def freeTested (old p : Part) : Part := if p.store.freeCount = old.store.freeCount then p else handOver (reclaimTest p)

/-! ## Placement -/

def otherBank : Bank → Bank
  | .even => .odd
  | .odd => .even

/-- The lowest-numbered FREE unit of a bank (R113). -/
def lowestFree (s : Store) (b : Bank) : Option Nat := allUnits.find? fun u => decide (bankOf u = b) && (s.unit u).cls == some .free

/-- The fresh unit that would be opened (R113). -/
def freshUnit (s : Store) : Option Nat :=
  match s.lastBank with
  | none => allUnits.find? fun u => (s.unit u).cls == some .free
  | some b => (lowestFree s (otherBank b)).or (lowestFree s b)

/-- The open unit has room for p pages (R113, step 1). -/
def openRun (s : Store) (p : Nat) : Option PageRun :=
  match s.openUnit with
  | none => none
  | some u => if (s.unit u).pages + p ≤ Config.pagesPerUnit then some { unit := u, first := (s.unit u).pages, pages := p } else none

/-- Opens a fresh unit, the unit open before becoming FULL (R113). -/
def openFresh (s : Store) (f : Nat) : Store :=
  let s := match s.openUnit with
    | some u => s.fillUnit u
    | none => s
  { s.modify f (fun x => { x with cls := some .opened }) with openUnit := some f, lastBank := some (bankOf f) }

/-- Places a run of p pages (R113). DEDUCED (log 12): a placement that cannot be made for want of a FREE unit leaves the open
unit OPEN, since R120 lets reclaim moves use the room it has left. -/
def placeRun (s : Store) (p : Nat) : Option PageRun × Store :=
  match openRun s p with
  | some run => (some run, s)
  | none =>
    match freshUnit s with
    | none => (none, s)
    | some f => (some { unit := f, first := 0, pages := p }, openFresh s f)

/-! ## Images and their places -/

def Generation.run (g : Generation) : PageRun := { unit := g.unit, first := g.first, pages := g.pages }
def Generation.span (g : Generation) : ImageSpan := { run := g.run, length := g.length, crc := g.crc }
def SetImage.run (i : SetImage) : PageRun := { unit := i.unit, first := i.first, pages := i.pages }
/-- A rule-set image is 24 bytes a rule (R35). -/
def SetImage.span (i : SetImage) : ImageSpan := { run := i.run, length := 24 * i.count, crc := i.crc }

/-- The referenced images: every generation of every entry, and the image of every LOADED or FAULTED set (R114). -/
def images (p : Part) : List (ImageRef × ImageSpan) :=
  p.cat.entries.flatMap (fun e => e.generations.map fun g => (.gen e.uid g.number, g.span))
    ++ (List.range p.rules.length).filterMap fun n => (ruleSetAt p.rules n).image.map fun i => (.set n, i.span)

/-- The place of a referenced image. -/
def spanOf (p : Part) (ref : ImageRef) : Option ImageSpan :=
  ((images p).find? fun x => decide (x.1 = ref)).map fun x => x.2

/-- The image of lower first page, the first given among equals. -/
def lowerFirst (best : Option (ImageRef × ImageSpan)) (x : ImageRef × ImageSpan) : Option (ImageRef × ImageSpan) :=
  match best with
  | none => some x
  | some b => if x.2.run.first < b.2.run.first then some x else some b

/-- The image of lowest first page, from a page upward, among those that live in a unit (R118, R121). -/
def imageIn (p : Part) (u page : Nat) : Option (ImageRef × ImageSpan) :=
  ((images p).filter fun x => decide (x.2.run.unit = u ∧ page ≤ x.2.run.first)).foldl lowerFirst none

/-- A generation at another place (R3). -/
def Generation.moved (g : Generation) (run : PageRun) : Generation := { g with unit := run.unit, first := run.first, pages := run.pages }

/-- The generation of a number at another place. -/
def movedIf (number : Nat) (run : PageRun) (g : Generation) : Generation := if g.number = number then g.moved run else g

/-- An entry with one of its generations at another place (R3). -/
def Entry.moved (e : Entry) (number : Nat) (run : PageRun) : Entry :=
  { e with staged := e.staged.map (movedIf number run), current := e.current.map (movedIf number run)
           previous := e.previous.map (movedIf number run) }

/-- Writes an image's new location into its generation record or Rule Memory; live pages follow, in one act (R3, R37, R114). -/
def relocate (p : Part) (m : Move) : Part :=
  let p := match m.ref with
    | .gen uid number => p.modifyEntry uid fun e => e.moved number m.target
    | .set n => { p with rules := putRuleSet p.rules n ((ruleSetAt p.rules n).moved m.target) }
  p.withStore fun s => (s.addLive m.target.unit m.target.pages).dropLive m.src.run.unit m.src.run.pages

/-- The data of page i of an image of some bytes, filled up with FFh (R14, R35). -/
def imagePage (bytes : List Byte) (i : Nat) : List Byte := fillTo Config.pageBytes 0xFF#8 (bytes.drop (i * Config.pageBytes))

/-- Every pending unit whose reader count is 0, in ascending order (R116). -/
def erasable (s : Store) : List Nat := allUnits.filter fun u => (s.unit u).pending && (s.unit u).readers == 0 && !(s.unit u).bad

/-- Some FREE unit exists. -/
def anyFree (s : Store) : Bool := s.units.any fun u => u.cls == some .free

/-- The skip mark of a source that is not condemned, so that no later step chooses it again (R123). -/
def Store.skipUnit (s : Store) (u : Nat) : Store := s.modify u fun x => if x.bad then x else { x with skip := true }

end Sys2Proof.Machine
end

