-- ==== Sys2Proof/Machine/Journal.lean ====
section
/-! DEFINITION. The record journal: the ring of good record units and the free room (R127), where the next slot lies, what each
writer's records are (R10, R100, R126, R130), the items of a snapshot (R130), and the entry changes they record
(R14 to R17). -/

namespace Sys2Proof.Machine

/-! ## The ring -/

/-- The good units of the record area, in ascending order (R127). -/
def goodRecords (s : Store) : List Nat := (List.range (s.recordSize.getD 0)).filter fun u => !(s.unit u).bad

/-- The next good unit after one, in ring order (R127). -/
def nextGood (s : Store) (u : Nat) : Option Nat :=
  ((goodRecords s).find? fun x => decide (u < x)).or ((goodRecords s).find? fun x => decide (x ≠ u))

/-- The good units in ring order, starting after one (R131). -/
def ringAfter (s : Store) (u : Nat) : List Nat :=
  (goodRecords s).filter (fun x => decide (u < x)) ++ (goodRecords s).filter fun x => decide (x ≤ u)

/-- The good record units that hold no programmed slot. -/
def emptyRecords (s : Store) : List Nat := (goodRecords s).filter fun u => (s.unit u).slots == 0

/-- Unprogrammed slots left in the unit being written; none once it is bad (R127, R128). -/
def writeRoom (s : Store) : Option Nat → Nat
  | none => 0
  | some u => if (s.unit u).bad then 0 else Config.slotsPerUnit - (s.unit u).slots

/-- The free room F (R127): slots left in the unit being written, and 128 for each other good unit with none programmed. -/
def freeRoom (p : Part) : Nat :=
  writeRoom p.store p.cat.writeUnit
    + Config.slotsPerUnit * ((emptyRecords p.store).filter fun u => decide (some u ≠ p.cat.writeUnit)).length

/-- Where the next slot lies. -/
inductive SlotPlace
  | here (unit : Nat)
  | afterErase (unit : Nat)
  | nowhere
  deriving DecidableEq, Repr

/-- Some good record unit has free slots (R128). -/
def anyFreeSlot (s : Store) : Bool := (goodRecords s).any fun v => decide ((s.unit v).slots < Config.slotsPerUnit)

/-- The place after the unit being written: the next good unit, erased first if it holds programmed slots (R127); after a failed slot
program there is none once no good record unit has free slots (R128; log 20). -/
def placeBeyond (s : Store) (u : Nat) (again : Bool) : SlotPlace :=
  match nextGood s u with
  | none => .nowhere
  | some v => if (s.unit v).slots = 0 then .here v else if again && !anyFreeSlot s then .nowhere else .afterErase v

/-- The place of the next slot; again after a failed slot program (R127, R128). DESIGN CHOICE (log 57): the position stays in a unit that
has filled until the next record is appended, and only then moves on and has the next good unit erased if it must be. -/
def slotPlace (s : Store) (writeUnit : Option Nat) (again : Bool) : SlotPlace :=
  match writeUnit with
  | none => .nowhere
  | some u =>
    if !again && !(s.unit u).bad && decide ((s.unit u).slots < Config.slotsPerUnit) then .here u else placeBeyond s u again

/-! ## Entry changes -/

/-- The persistent fields of an entry (R1, R126). -/
def Entry.image (e : Entry) : EntryImage :=
  { key := e.key, ruleSet := e.ruleSet, counter := e.counter, staged := e.staged, current := e.current, previous := e.previous }

/-- The generation an ENROL makes of its image (R2, R14). -/
def newGeneration (number : Nat) (image : List Byte) (run : PageRun) : Generation :=
  { number := number, unit := run.unit, first := run.first, pages := run.pages, length := image.length, crc := crc32 image }

/-- A new entry, before its first generation is staged: counter 1, volatile fields as R4 gives (R14). -/
def newEntry (p : Part) (k : Key) (ruleSet : Nat) : Entry :=
  { uid := p.cat.nextUid, key := k, counter := 1, ruleSet := ruleSet, staged := none, current := none, previous := none, damaged := false
    verdict := .unchecked, second := p.line.seconds, epoch := p.line.epoch, bandPeak := .zero, trackPeak := .zero }

/-- The entry after ENROL (R14): the new generation staged under the counter's number, the counter raised, the rule set named. -/
def Entry.enrolled (ruleSet : Nat) (image : List Byte) (run : PageRun) (e : Entry) : Entry :=
  { e with staged := some (newGeneration e.counter image run), counter := e.counter + 1, ruleSet := ruleSet }

/-- The entry an ENROL leaves: the one with the key, or a new one (R14). -/
def enrolledEntry (p : Part) (r : Request) (run : PageRun) : Entry :=
  ((findKey p.cat.entries r.key).getD (newEntry p r.key r.enrolRuleSet)).enrolled r.enrolRuleSet p.cat.buffer run

/-- The entry after COMMIT (R15): current to previous, staged to current, staged absent, not damaged. -/
def committed (e : Entry) : Entry := { e with previous := e.current, current := e.staged, staged := none, damaged := false }

/-- The entry after DISCARD (R16). -/
def discarded (e : Entry) : Entry := { e with staged := none }

/-- The entry after REVERT (R17): previous to current, previous absent, not damaged. -/
def reverted (e : Entry) : Entry := { e with current := e.previous, previous := none, damaged := false }

/-- The entries of a format with a staged generation, in ascending order of station, then block (R15, R16). -/
def stagedOf (p : Part) (f : Nat) : List Entry :=
  sortByKey (p.cat.entries.filter fun e => e.key.format == f && e.staged.isSome)

/-! ## Stations and parameters -/

/-- The persistent fields of a station's place. -/
def Station.image (s : Station) : StationImage := { defined := s.defined, order := s.order, name := s.name, heldOut := s.heldOut }

/-- The place after DEFINE (R87): a defined station keeps its held-out flag. -/
def Station.define (s : Station) (order : ByteOrder) (name : List Byte) : Station :=
  { s with defined := true, order := order, name := name, heldOut := s.defined && s.heldOut }

/-- The place after UNDEFINE (R87). -/
def Station.undefine (s : Station) : Station := { s with defined := false, heldOut := false }

/-- The value of a place has been read for a record: a set mark waits for the record to be complete (R87, R100). -/
def Mark.read : Mark → Mark
  | .clear => .clear
  | .marked => .reading
  | .reading => .reading

/-- The record is complete: the mark is cleared, unless it has been set again (R100). -/
def Mark.settle : Mark → Mark
  | .clear => .clear
  | .marked => .marked
  | .reading => .clear

/-- The record was not written: the mark is as it was set. -/
def Mark.restore : Mark → Mark
  | .clear => .clear
  | .marked => .marked
  | .reading => .marked

/-- Changes every mark. -/
def mapMarks (f : Mark → Mark) (p : Part) : Part :=
  { p with line := { p.line with formatMark := f p.line.formatMark, stations := p.line.stations.map fun s => { s with mark := f s.mark } } }

/-- The line parameters a PARAM_SET asks for, the limit clamped (R102). -/
def askedParams (r : Request) : Params :=
  { staleness := clampTo 30 3600 r.staleness, operatorAdmit := r.operatorAdmit == 1, override := r.overrideParam == 1 }

/-! ## The records of each writer -/

/-- The image record a RULE_LOAD makes (R35). -/
def loadedImage (p : Part) (r : Request) (run : PageRun) : SetImage :=
  { unit := run.unit, first := run.first, pages := run.pages, count := r.loadCount, crc := crc32 p.cat.buffer }

/-- The RELOCATE record of a move (R37, R119). -/
def moveRecords (p : Part) (m : Move) : List JournalRecord :=
  match m.ref with
  | .gen uid number => ((findUid p.cat.entries uid).map fun e => .entry .relocate (e.moved number m.target).image).toList
  | .set n => (((ruleSetAt p.rules n).moved m.target).image.map fun i => .ruleset .relocate n i).toList

/-- The record of one item of a snapshot, as it stands now (R130). -/
def snapRecords (p : Part) : SnapItem → List JournalRecord
  | .start => [.snapBegin (p.store.recordSize.getD 0)]
  | .bad us => [.bad us]
  | .ruleset n => ((ruleSetAt p.rules n).image.map fun img => .ruleset .change n img).toList
  | .station n => [.station n (p.line.station n).image]
  | .param => [.param (if p.device = .formatting then Params.defaults else p.line.params)]
  | .format => (p.line.active.map .format).toList
  | .entry k => ((findKey p.cat.entries k).map fun e => .entry .change e.image).toList

/-- A snapshot reads the values of stations and format: their marks wait for its end (R130). It states the undefined places by
leaving them out, so their marks wait from its start. -/
def snapRead (p : Part) : SnapItem → Part
  | .start =>
    { p with line :=
        { p.line with stations := p.line.stations.map fun s => if s.defined then s else { s with mark := s.mark.read } } }
  | .station n => p.modifyStation n fun s => { s with mark := s.mark.read }
  | .format => { p with line := { p.line with formatMark := p.line.formatMark.read } }
  | _ => p

/-- The bad-unit list, sixteen units to a BAD record, the last holding the remainder (R130). -/
def badItems (s : Store) : List SnapItem :=
  (List.range ((s.badList.length + 15) / 16)).map fun i => .bad ((s.badList.drop (16 * i)).take 16)

/-- The items of a snapshot, SNAP_BEGIN first (R130). -/
def snapshotItems (p : Part) : List SnapItem :=
  [.start] ++ badItems p.store
    ++ ((List.range p.rules.length).filter fun n => (ruleSetAt p.rules n).image.isSome).map .ruleset
    ++ ((List.range p.line.stations.length).filter fun n => (p.line.station n).defined).map .station
    ++ [.param, .format] ++ (sortByKey p.cat.entries).map fun e => .entry e.key

/-- The size of a snapshot in records, SNAP_END included. -/
def snapshotSize (p : Part) : Nat := (snapshotItems p).length + (if p.line.active.isSome then 1 else 0)

/-- The records a writer appends, each item as it will be after the change or as it stands (R10, R87, R100, R102, R119). -/
def recordsOf (p : Part) : Writer → List JournalRecord
  | .enrol =>
    match p.cat.req, p.cat.run with
    | some r, some run => [.entry .change (enrolledEntry p r run).image]
    | _, _ => []
  | .commit f =>
    let es := stagedOf p f
    [.commitBegin f es.length] ++ es.map (fun e => .entry .change (committed e).image) ++ [.commitEnd]
  | .discard k =>
    match findKey p.cat.entries k with
    | none => []
    | some e => if e.current.isSome then [.entry .change (discarded e).image] else [.entryGone k]
  | .revert k => ((findKey p.cat.entries k).map fun e => .entry .change (reverted e).image).toList
  | .retire k => [.entryGone k]
  | .ruleLoad =>
    match p.cat.req, p.cat.run with
    | some r, some run => [.ruleset .change r.loadSet (loadedImage p r run)]
    | _, _ => []
  | .ruleDelete n => [.rulesetGone n]
  | .stationDefine =>
    match p.cat.req with
    | some r => [.station r.defineStation ((p.line.station r.defineStation).define (orderOf r.defineOrder) r.defineName).image]
    | none => []
  | .stationUndefine =>
    match p.cat.req with
    | some r => [.station r.defineStation (p.line.station r.defineStation).undefine.image]
    | none => []
  | .paramSet =>
    match p.cat.req with
    | some r => [.param (askedParams r)]
    | none => []
  | .stationMark n => if (p.line.station n).mark = .clear then [] else [.station n (p.line.station n).image]
  | .formatMark => if p.line.formatMark = .clear then [] else (p.line.active.map .format).toList
  | .move m => moveRecords p m
  | .badUnit u => [.bad [u]]
  | .snapshotPart => []

/-- Making a writer's records reads the values its marks stand for (R87, R100). -/
def readFor (p : Part) : Writer → Part
  | .stationMark n => p.modifyStation n fun s => { s with mark := s.mark.read }
  | .formatMark => { p with line := { p.line with formatMark := p.line.formatMark.read } }
  | .stationDefine =>
    match p.cat.req with
    | some r => p.modifyStation r.defineStation fun s => { s with mark := s.mark.read }
    | none => p
  | .stationUndefine =>
    match p.cat.req with
    | some r => p.modifyStation r.defineStation fun s => { s with mark := s.mark.read }
    | none => p
  | _ => p

end Sys2Proof.Machine
end

