-- ==== Sys2Proof/Machine/Flags.lean ====
section
/-! DEFINITION. The attention lines and the writes of CAUSE and CAUSECFG (R156 to R159). -/

namespace Sys2Proof.Machine

/-- ALERT# is asserted while a cause is pending, enabled and routed URGENT (R159). -/
def Attention.alert (a : Attention) : Bool := (a.pending &&& a.enable &&& a.route) != 0#10

/-- NOTE# is asserted while a cause is pending, enabled and routed ROUTINE (R159). -/
def Attention.note (a : Attention) : Bool := (a.pending &&& a.enable &&& ~~~a.route) != 0#10

/-- The ALERT# output is asserted: never while RESET# is low or the supplies are down (R159). -/
def Part.alertAsserted (p : Part) : Bool := p.on && p.att.alert

/-- The NOTE# output is asserted. -/
def Part.noteAsserted (p : Part) : Bool := p.on && p.att.note

/-- The level of the CONFORM output; a pull-down holds it low while unpowered (R162). -/
def Part.conformLevel (p : Part) : Bool := p.on && p.line.conform

/-- A cause is pending. -/
def Part.isPending (p : Part) (c : Cause) : Bool := p.att.pending.getLsbD c.bit

/-- A 32-bit write to CAUSE removes every cause whose bit is written 1 (R158). -/
def writeCause (p : Part) (v : Reg) : Part :=
  { p with att := { p.att with pending := p.att.pending &&& ~~~(v.setWidth 10) } }

/-- A 32-bit write to CAUSECFG replaces every enable, bits 9 to 0, and every route, bits 25 to 16 (R157). -/
def writeCausecfg (p : Part) (v : Reg) : Part :=
  { p with att := { p.att with enable := v.setWidth 10, route := (v >>> 16).setWidth 10 } }

end Sys2Proof.Machine
end

