-- ==== Sys2Proof/Machine/LineRequests.lean ====
section
/-! DEFINITION. The line requests, decided by the Line Controller at the moment of take (R78, R88, R89, R95, R96, R99),
and handing a completion to the Exchange Port. -/

namespace Sys2Proof.Machine

/-- Hands the completion of a request to the Exchange Port, which writes completions in the order they reach it (R148). -/
def complete (p : Part) (r : Request) (code : Code) (result : Option (List Byte)) (findings : Option (List Byte)) : Part :=
  { p with port :=
      { p.port with
        completions := p.port.completions ++
          [{ bundle := r.bundle, sheet := r.sheet, enablement := r.enablement, quiet := r.quiet, code := code, result := result
             findings := findings }] } }

/-- A line request's completion. -/
def completeLine (p : Part) (r : Request) (code : Code) (items : List (Nat × List Byte)) : Part :=
  complete p r code (some (resultArea items)) none

/-- The line requests that need the key switch (R76, R78). -/
def Kind.lineNeedsKey : Kind → Bool
  | .openChangeover => true
  | .holdOut => true
  | .restore => true
  | _ => false

/-- Tests 1 to 4 of R78: the code of the first that fails. -/
def lineTests (p : Part) (r : Request) : Option Code :=
  if p.device ≠ .ready then some .notReady
  else if ¬ r.originValid then some .badOrigin
  else if ¬ r.supervisor then some .notPermitted
  else if r.kind.lineNeedsKey ∧ ¬ r.keyOn then some .keyOff
  else none

/-- Some entry of a format has a current generation (R95, test 4). -/
def formatInForce (p : Part) (G : Nat) : Bool := p.cat.entries.any fun e => e.key.format == G && e.current.isSome

/-- The own tests of OPEN_CHANGEOVER (R95). -/
def openTests (p : Part) (G : Nat) : Option Code :=
  if ¬ G ≤ 30 then some .badKey
  else if p.line.state ≠ .running ∧ p.line.state ≠ .noFormat then some .wrongState
  else if ¬ p.line.epoch < Config.epochSpent then some .counterSpent
  else if ¬ formatInForce p G then some .noBaseline
  else none

/-- The own tests of HOLD_OUT and RESTORE: wanted is whether the station must be held out already (R88, R89). -/
def holdTests (p : Part) (n : Nat) (wanted : Bool) : Option Code :=
  if ¬ n ≤ 15 then some .badKey
  else if ¬ (p.line.station n).defined then some .noStation
  else if (p.line.station n).heldOut ≠ wanted then some .wrongState
  else none

/-- OPEN_CHANGEOVER after tests 1 to 4 of R78 (R95). -/
def lineOpen (p : Part) (r : Request) : Part :=
  match openTests p r.targetFormat with
  | some c => completeLine p r c []
  | none =>
    let window := clampTo 60 7200 r.window
    let q := openLine p r.targetFormat window
    completeLine q r .ok [(64, leBytes 1 r.targetFormat), (65, leBytes 1 p.line.state.value), (68, leBytes 4 window), (72, leBytes 4 q.line.epoch)]

/-- CLOSE_CHANGEOVER after tests 1 to 3 of R78 (R96). -/
def lineClose (p : Part) (r : Request) : Part :=
  if p.line.state ≠ .changeover then completeLine p r .wrongState []
  else
    let q := closeLine p
    completeLine q r .ok [(64, leBytes 1 q.line.state.value), (65, leBytes 1 (notPassing q))]

/-- ABANDON_CHANGEOVER after tests 1 to 3 of R78 (R99). -/
def lineAbandon (p : Part) (r : Request) : Part :=
  if p.line.state ≠ .changeover ∧ p.line.state ≠ .settling then completeLine p r .wrongState []
  else
    let q := abandonLine p
    completeLine q r .ok [(64, leBytes 1 q.line.state.value), (68, leBytes 4 q.line.epoch)]

/-- HOLD_OUT after tests 1 to 4 of R78 (R88). -/
def lineHoldOut (p : Part) (r : Request) : Part :=
  match holdTests p r.station false with
  | some c => completeLine p r c []
  | none =>
    completeLine (recompute (holdStation p r.station true)) r .ok
      [(64, leBytes 1 r.station), (65, leBytes 1 (p.line.station r.station).state.value)]

/-- RESTORE after tests 1 to 4 of R78 (R89). -/
def lineRestore (p : Part) (r : Request) : Part :=
  match holdTests p r.station true with
  | some c => completeLine p r c []
  | none =>
    let q := restoreStation p r.station
    completeLine q r .ok
      [(64, leBytes 1 r.station), (65, leBytes 1 (q.line.station r.station).state.value),
       (66, leBytes 2 (p.cat.entries.countP fun e => decide (e.key.station = r.station)))]

/-- The Line Controller decides a line request and hands back its completion (R78). -/
def lineRequest (p : Part) (r : Request) : Part :=
  match lineTests p r with
  | some c => completeLine p r c []
  | none =>
    match r.kind with
    | .openChangeover => lineOpen p r
    | .closeChangeover => lineClose p r
    | .abandonChangeover => lineAbandon p r
    | .holdOut => lineHoldOut p r
    | .restore => lineRestore p r
    | _ => p

end Sys2Proof.Machine
end

