-- ==== Sys2Proof/Machine/Torn.lean ====
section
/-! DEFINITION. What RESET# leaves: the operations of the banks torn, the store, the part as a whole (R106, R124, R161); and the end of
a bank's operation. -/

namespace Sys2Proof.Machine

/-- Takes the operation at the head of a bank's queue off it. -/
def finishHead (p : Part) (b : Bank) : Part := p.withStore fun s => s.setQueue b (s.queue b).tail

/-- What RESET# leaves of the operation a bank had in progress (R106, R125, R109). -/
def tearOne (t : Torn) (job : Option BankJob) (s : Store) : Store :=
  match job.map BankJob.op, t with
  | some (.programPage u page _), .bytes left => s.pageProgrammed u page left
  | some (.programPage u page data), .whole => s.pageProgrammed u page data
  | some (.programSlot u slot _), .bytes left => s.slotProgrammed u slot left
  | some (.programSlot u slot data), .whole => s.slotProgrammed u slot data
  | some (.eraseUnit u), .mixture erased => { s with flash := eraseMixture s.flash (u * Config.unitBytes) (erased.take Config.unitBytes) }
  | some (.eraseUnit u), .whole => s.unitErased u
  | _, _ => s

/-- Both banks stop, and their queues are emptied. -/
def tearBanks (t : TornOps) (s : Store) : Store :=
  { tearOne t.odd s.bank1.head? (tearOne t.even s.bank0.head? s) with bank0 := [], bank1 := [] }

/-- The store after RESET#: the flash with what it records of itself, and the fuses, stay (R105, R124). -/
def Store.afterReset (s : Store) : Store :=
  { s with
    units := s.units.map EraseUnit.afterReset
    openUnit := none, lastBank := none, runFlag := false, recordSize := none, bank0 := [], bank1 := [] }

/-- RESET# takes effect (R161): every block takes its values after RESET#; the flash, the fuses, the pins and the host's
memory stay. -/
def resetPart (t : TornOps) (p : Part) : Part :=
  { Part.reset with
    pins := { p.pins with resetLow := true }
    store := (tearBanks t p.store).afterReset, host := p.host }

end Sys2Proof.Machine
end

