-- ==== Sys2Proof/Machine/Port.lean ====
section
/-! DEFINITION. The Exchange Port: the register window, transfers on the exchange area, scanning and taking,
completions, the wipe of a bundle, the status page, enable, disable and halt (R139 to R155). -/

namespace Sys2Proof.Machine

/-! ## Port state -/

/-- The port is RUNNING or WAITING: enabled and not HALTED (R142). -/
def Port.live (x : Port) : Bool := decide (x.state = .running) || decide (x.state = .waiting)

/-- The port is enabled: RUNNING, WAITING or HALTED (R142). -/
def Port.enabled (x : Port) : Bool := decide (x.state ≠ .disabled)

/-- Asks for a scan; while DISABLED, HALTED or MOUNTING none is made (R144). -/
def askScan (p : Part) : Part :=
  if p.port.live && decide (p.device ≠ .mounting) then { p with port := { p.port with scanAsked := true } } else p

/-- The requests in the two queues are discarded, without results (R154, R155). -/
def discardQueues (p : Part) : Part :=
  { p with engine := { p.engine with queue := [] }, cat := { p.cat with queue := [], beginFirst := false } }

/-- A transfer on the exchange area has failed (R154): HALTED, the enablement ends, EXCHANGE_FAULT, queues discarded,
the scan timer stops. -/
def exchangeFault (p : Part) : Part :=
  discardQueues ({ p with port := { p.port with state := .halted, enablement := none, timer := none } }.raise .exchangeFault)

/-- The port is disabled (R155). -/
def disablePort (p : Part) : Part :=
  discardQueues { p with port := { p.port with state := .disabled, enablement := none, timer := none, scanAsked := false } }

/-- The area base (R140, R141). -/
def Port.base (x : Port) : Nat := (x.baseHi ++ x.baseLo).toNat

/-- The host address of a sheet (R141). -/
def Port.sheetAddress (x : Port) (b s : Nat) : Nat := x.base + 4096 + b * 2048 + s * 256

/-- What the port keeps for a bundle. -/
def Port.bundle (x : Port) (b : Nat) : Bundle := x.bundles.getD b .reset

/-- Changes what the port keeps for a bundle. -/
def Part.modifyBundle (p : Part) (b : Nat) (f : Bundle → Bundle) : Part :=
  { p with port := { p.port with bundles := modifyNth f b p.port.bundles } }

/-! ## Transfers -/

/-- EXCTL written with enable 0 while the port is enabled: the interval is taken, and the port disabled (R140, R155). -/
def takeDisable (interval : Nat) (p : Part) : Part := disablePort { p with port := { p.port with interval := interval } }

/-- The part in the course of some bus transfers: those still to come, whether transfers go on, and the interval of a disable that
waits for the present transfer to be complete (R155). -/
structure Bus where
  part : Part
  io   : List Xfer
  up   : Bool
  stop : Option Nat
  deriving DecidableEq, Repr

/-- A bus with its transfers before it. -/
def Bus.start (p : Part) (io : List Xfer) : Bus := { part := p, io := io, up := true, stop := none }

/-- A disable that came during the transfer before is taken: nothing more is transferred (R145, R155). -/
def Bus.heed (b : Bus) : Bus :=
  match b.stop with
  | some i => { b with part := takeDisable i b.part, up := false, stop := none }
  | none => b

/-- The next transfer as the outside world decides it; beyond the list given, it goes through. -/
def Bus.nextXfer (b : Bus) : Xfer := b.io.headD { host := [], result := .ok }

/-- A request for a scan that arrives with the next transfer is noted (R144). -/
def noteAsk (e : Option BusEvent) (p : Part) : Part := if e = some .ask then askScan p else p

/-- The host's stores before the next transfer are made, and the transfer is used up. -/
def Bus.settle (b : Bus) : Bus :=
  { b with part := noteAsk b.nextXfer.event (b.part.hostStores b.nextXfer.host), io := b.io.tail }

/-- The next transfer goes through: the endpoint reports no error, bus mastering is on, the address exists (R154). -/
def Bus.goes (b : Bus) (a n : Nat) : Bool :=
  decide (b.nextXfer.result = .ok) && b.part.pins.mastering && addressOk a n

/-- A transfer on the exchange area fails: the port is HALTED, and nothing more is transferred. -/
def Bus.fail (b : Bus) : Bus := { b with part := exchangeFault b.part, up := false }

/-- What follows a transfer that is over, by what arrived during it: RESET# takes effect; a disable taken before the completion ends
the step there; a disable taken after it waits until the act of the transfer is made. Only without either does a failure count as
one of a port that is enabled (R145, R150, R154, R155). -/
def Bus.over (b : Bus) (e : Option BusEvent) (went : Bool) : Bus :=
  match e with
  | some (.reset torn) => { b with part := resetPart torn b.part, up := false }
  | some (.disable i true) => { b with part := takeDisable i.toNat b.part, up := false }
  | some (.disable i false) => if went then { b with stop := some i.toNat } else { b.fail with part := takeDisable i.toNat b.fail.part }
  | some .ask => if went then b else b.fail
  | none => if went then b else b.fail

/-- Reads n bytes of the exchange area. -/
def Bus.read (b : Bus) (a n : Nat) : List Byte × Bus :=
  let b := if b.up then b.heed else b
  if b.up then (b.settle.part.hostRead a n, b.settle.over b.nextXfer.event (b.goes a n)) else ([], b)

/-- Writes pieces of the exchange area in one transfer; a failed write may have reached memory all the same. -/
def Bus.write (b : Bus) (pieces : List (Nat × List Byte)) : Bus :=
  let b := if b.up then b.heed else b
  if b.up then
    let c := b.settle
    let written := pieces.foldl (fun q x => q.hostWrite x.1 x.2) c.part
    let went := pieces.all fun x => b.goes x.1 x.2.length
    let reached := went || decide (b.nextXfer.result = .failed true)
    (if reached then { c with part := written } else c).over b.nextXfer.event went
  else b

/-- The part when the step is over, a disable that still waits taken. -/
def Bus.finish (b : Bus) : Part := b.heed.part

/-- An act of the part once its transfers have gone through. -/
def Bus.act (b : Bus) (f : Part → Part) : Bus := if b.up then { b with part := f b.part } else b

/-! ## The status page -/

/-- Writes some items of the status page, then raises the update count and writes it (R151). DESIGN CHOICE (log 53): the items go in one
transfer and the count in another, so an update that fails or is cut short leaves all of its items or none. -/
def Bus.writeItems (b : Bus) (items : List StatusItem) : Bus :=
  let base := b.part.port.base
  let c := b.write (items.map fun i => (base + i.offset, b.part.port.copy.bytes i))
  let c := c.act fun p => { p with port := { p.port with updates := (p.port.updates + 1) % 2 ^ 32, changed := [] } }
  c.write [(base, leBytes 4 c.part.port.updates)]

/-- Writes the gathered hand-overs as one update, when there are any (R151). -/
def Bus.flushStatus (b : Bus) : Bus :=
  if b.up && b.part.port.live && !b.part.port.changed.isEmpty then b.writeItems b.part.port.changed else b

/-! ## Completion and wipe -/

/-- The eight sheets of a bundle. -/
def sheetNumbers : List Nat := List.range 8

/-- A bundle is wiped: done count 0, fresh, wipe count raised, BUNDLE_WIPED, a scan if the cursor lies in it (R150). -/
def wipeDone (bundle : Nat) (p : Part) : Part :=
  let p := p.modifyBundle bundle fun x => { fresh := true, done := 0, wipes := satAdd x.wipes 1 }
  let p := (handOver p).raise .bundleWiped
  if p.port.cursorB = bundle then askScan p else p

/-- Reads one byte at each address, a transfer for each. DESIGN CHOICE (log 52): the state bytes of R150 are read so, in ascending order
of sheet, and all of them though one already read is not COLLECTED. -/
def Bus.readEach (b : Bus) : List Nat → List (List Byte) × Bus
  | [] => ([], b)
  | a :: as =>
    let (x, c) := b.read a 1
    let (xs, d) := Bus.readEach c as
    (x :: xs, d)

/-- The wipe check of a bundle (R150): below eight completions it ends at once; the eight state bytes are read, and if
all are COLLECTED the bundle is written BLANK sheet by sheet. -/
def Bus.wipeCheck (b : Bus) (bundle : Nat) : Bus :=
  if b.up && (b.part.port.bundle bundle).done == 8 then
    let address := b.part.port.sheetAddress bundle
    let (states, c) := b.readEach (sheetNumbers.map address)
    if c.up && states.all fun x => x == [sheetCollected] then
      (sheetNumbers.foldl (fun d s => d.write [(address s, [sheetBlank])]) c).act (wipeDone bundle)
    else c
  else b

/-- The counts and the cause of a completion once its DONE write has completed (R148). -/
def completionCounted (c : Completion) (p : Part) : Part :=
  let p := p.modifyBundle c.bundle fun x => { x with done := x.done + 1 }
  let p := handOver { p with port := { p.port with completed := satAdd p.port.completed 1 } }
  if c.quiet then p else p.raise .sheetDone

/-- Writes a completion: result summary, findings, completion code, DONE, each after the one before (R148); dropped when
its enablement has ended. Hand-overs that came before it are written before it (R151). What else belongs to the act in which DONE
completes follows the counts; then comes the wipe check. -/
def Bus.writeCompletion (b : Bus) (c : Completion) (also : Part → Part) : Bus :=
  if b.part.port.enablement = some c.enablement then
    let b := b.flushStatus
    let address := b.part.port.sheetAddress c.bundle c.sheet
    let b := match c.result with
      | some r => b.write [(address + 64, r)]
      | none => b
    let b := match c.findings with
      | some f => b.write [(address + 128, f)]
      | none => b
    let b := b.write [(address + 6, leBytes 2 c.code.value)]
    let b := b.write [(address, [sheetDoneByte])]
    (b.act fun p => also (completionCounted c p)).wipeCheck c.bundle
  else b

/-- Writes the oldest completion that has reached the port (R148). -/
def Bus.nextCompletion (b : Bus) : Bus :=
  match b.part.port.completions with
  | [] => b
  | c :: cs => { b with part := { b.part with port := { b.part.port with completions := cs } } }.writeCompletion c id

/-- Writes so many completions, oldest first, while the transfers go through. -/
def Bus.drain : Nat → Bus → Bus
  | 0, b => b
  | n + 1, b => if b.up then Bus.drain n b.nextCompletion else b

/-! ## Scanning and taking -/

/-- The cursor advances (R147): past sheet 7 its bundle is no longer fresh, and the next bundle follows. -/
def advanceCursor (p : Part) : Part :=
  if p.port.cursorS < 7 then { p with port := { p.port with cursorS := p.port.cursorS + 1 } }
  else
    let p := p.modifyBundle p.port.cursorB fun x => { x with fresh := false }
    { p with port := { p.port with cursorS := 0, cursorB := if p.port.cursorB + 1 < p.port.count then p.port.cursorB + 1 else 0 } }

/-- The port answers the sheet at the cursor at once, BAD_STATE or BAD_KIND, after the completions that wait, and the cursor advances
(R145, R146). DEDUCED (log 60): the cursor advances in the act in which DONE completes, before the wipe check of R148, so that a bundle
wiped there is fresh, and one whose wipe is cut short is not (R150). -/
def Bus.answer (b : Bus) (code : Code) (quiet : Bool) : Bus :=
  let x := b.part.port
  let c : Completion :=
    { bundle := x.cursorB, sheet := x.cursorS, enablement := x.enablement.getD 0, quiet := quiet, code := code, result := none, findings := none }
  (b.drain x.completions.length).writeCompletion c advanceCursor

/-- Who owns a request kind (R146). -/
inductive Owner
  | checkQueue
  | catalogueQueue
  | lineController
  deriving DecidableEq, Repr

def Kind.owner : Kind → Owner
  | .check => .checkQueue
  | .admission => .checkQueue
  | .openChangeover => .lineController
  | .closeChangeover => .lineController
  | .abandonChangeover => .lineController
  | .holdOut => .lineController
  | .restore => .lineController
  | _ => .catalogueQueue

/-- The owner has room for one more request (R8, R62). -/
def ownerHasRoom (p : Part) : Owner → Bool
  | .checkQueue => decide (p.engine.queue.length < Config.checkQueueRoom)
  | .catalogueQueue => decide (p.cat.queue.length < Config.catalogueQueueRoom)
  | .lineController => true

/-- The Catalogue Unit is erasing pending units between requests: a request taken now is begun before any further erase (R116).
DESIGN CHOICE (log 40): only one taken while an erase is in progress; for one taken while the BAD record of a failed erase is written
the erases that remain go on first. -/
def erasingBetween (c : CatUnit) : Bool :=
  match c.await with
  | some (.erase _ _ .between) => true
  | _ => false

/-- A taken request joins the tail of its queue, or the Line Controller decides it at once (R146). -/
def giveToOwner (p : Part) (r : Request) : Part :=
  match r.kind.owner with
  | .checkQueue => { p with engine := { p.engine with queue := p.engine.queue ++ [r] } }
  | .catalogueQueue =>
    { p with cat := { p.cat with queue := p.cat.queue ++ [r], beginFirst := p.cat.beginFirst || erasingBetween p.cat } }
  | .lineController => lineRequest p r

/-- The one act of a take once TAKEN is written: the key is sampled, the request given the present enablement and its
owner, the cursor advances (R77, R146). -/
def takeAct (sheet : List Byte) (kind : Kind) (p : Part) : Part :=
  let r := requestOf sheet kind p.port.cursorB p.port.cursorS p.key.level (p.port.enablement.getD 0)
  giveToOwner (advanceCursor p) r

/-- A posted sheet as it was read: answered BAD_KIND, left for want of room, or taken (R146). The Bool says whether the
scan goes on. -/
def Bus.posted (b : Bus) (sheet : List Byte) : Bus × Bool :=
  match kindOfCode (numAt sheet 1 1) with
  | none => (b.answer .badKind ((sheet.getD 3 0#8).getLsbD 0), true)
  | some kind =>
    if ownerHasRoom b.part kind.owner then
      let c := b.write [(b.part.port.sheetAddress b.part.port.cursorB b.part.port.cursorS, [sheetTaken])]
      (c.act (takeAct sheet kind), true)
    else (b.act fun p => { p with port := { p.port with state := .waiting } }, false)

/-- Acts on a state byte other than POSTED read at the cursor (R145). -/
def Bus.unposted (b : Bus) (state : List Byte) : Bus × Bool :=
  if state = [sheetBlank] then (b.act fun p => { p with port := { p.port with state := .running } }, false)
  else (b.answer .badState false, true)

/-- Reads the sheet at the cursor and acts on it (R145, R146). -/
def Bus.sheet (b : Bus) : Bus × Bool :=
  let address := b.part.port.sheetAddress b.part.port.cursorB b.part.port.cursorS
  let (state, c) := b.read address 1
  if c.up then
    if state = [sheetPosted] then
      let (copy, d) := c.read address 256
      if d.up then (if copy.take 1 = [sheetPosted] then d.posted copy else d.unposted (copy.take 1)) else (d, false)
    else c.unposted state
  else (c, false)

/-- The sheets of a scan, from the cursor on (R145). -/
def Bus.sheets : Nat → Bus → Bus
  | 0, b => b
  | n + 1, b =>
    if b.up then
      if (b.part.port.bundle b.part.port.cursorB).fresh then
        let (c, more) := b.sheet
        if more then Bus.sheets n c else c
      else b.act fun p => { p with port := { p.port with state := .waiting } }
    else b

/-- A bound on what one scan can meet: the sheets of the area, and a transfer's worth for each transfer given. -/
def scanBound (b : Bus) : Nat := b.io.length + 1024

/-- One scan: the wipe checks, then the sheets at the cursor (R145). DESIGN CHOICE (log 51): the bundles are checked in ascending
number. -/
def Bus.scanOnce (b : Bus) : Bus :=
  let c := (List.range b.part.port.count).foldl Bus.wipeCheck b
  c.sheets (scanBound b)

/-- The scan asked for, and one more whenever another has been asked for meanwhile (R144). -/
def Bus.scans : Nat → Bus → Bus
  | 0, b => b
  | n + 1, b =>
    if b.up && b.part.port.scanAsked then
      Bus.scans n { b with part := { b.part with port := { b.part.port with scanAsked := false } } }.scanOnce
    else b

/-- The scan command: made when a scan has been asked for and can be made (R144); a disable or RESET# ends it after the transfer in
progress (R145). -/
def makeScan (p : Part) (io : List Xfer) : Part :=
  if p.on && p.port.live && decide (p.device ≠ .mounting) && p.port.scanAsked then
    ((Bus.start p io).scans (scanBound (Bus.start p io))).finish
  else p

/-- A line request posted at the cursor and taken there: the host writes the sheet, the port reads and takes it. It is
taken only where a scan would read the sheet (R144 to R147). -/
def takeLineSheet (p : Part) (kind : Kind) (head : SheetHead) (params : List (Nat × List Byte)) : Part :=
  if p.on && p.port.live && decide (p.device ≠ .mounting) && (p.port.bundle p.port.cursorB).fresh then
    let address := p.port.sheetAddress p.port.cursorB p.port.cursorS
    let sheet := postedSheet kind head params
    ((Bus.start (p.hostWrite address sheet) []).posted sheet).1.finish
  else p

/-! ## The register window -/

/-- A bundle count taken: below 4 it is 4, above 64 it is 64 (R140). -/
def takenCount (v : Nat) : Nat := clampTo 4 64 v

/-- The scan timer started afresh: one interval, or no ticks with an interval of 0 (R140). -/
def timerFor (interval : Nat) : Option Nat := if interval = 0 then none else some interval

/-- Steps 1 to 3 of R143: a new enablement, the cursor at the start, every bundle fresh, the counts at 0. -/
def beginEnablement (p : Part) : Part :=
  { p with port :=
      { p.port with
        state := .running, enablement := some p.port.nextEnable, nextEnable := p.port.nextEnable + 1, cursorB := 0, cursorS := 0
        bundles := p.port.bundles.mapIdx fun b _ => { fresh := decide (b < p.port.count), done := 0, wipes := 0 }
        completed := 0 } }

/-- The port is enabled (R143): the whole status page is written from the copy, then the timer starts and a scan is asked for. -/
def enablePort (p : Part) (io : List Xfer) : Part :=
  let p := handOver (beginEnablement p)
  ((Bus.start p io).writeItems statusItems |>.act fun p =>
    askScan { p with port := { p.port with timer := timerFor p.port.interval } }).finish

/-- EXCTL as a value: enable in bit 0, bundle count in bits 14 to 8, interval in bits 23 to 16 (R165, Registers). -/
def exctlValue (enable : Bool) (count : BitVec 7) (interval : Byte) : Reg :=
  BitVec.ofNat 32 (boolNat enable + count.toNat * 2 ^ 8 + interval.toNat * 2 ^ 16)

/-- A 32-bit write to EXCTL (R140). Enable 1 written in HALTED takes the interval and starts no timer (DEDUCED, log 44): R144 makes no
tick in HALTED, and R154 stops the timer. -/
def writeExctl (p : Part) (v : Reg) (io : List Xfer) : Part :=
  let interval := (v.toNat / 2 ^ 16) % 256
  let p' := { p with port := { p.port with interval := interval } }
  if p.port.state = .disabled then
    let p' := { p' with port := { p'.port with count := takenCount ((v.toNat / 2 ^ 8) % 128) } }
    if v.getLsbD 0 then enablePort p' io else p'
  else if v.getLsbD 0 then
    if p.port.live then { p' with port := { p'.port with timer := timerFor interval } } else p'
  else takeDisable interval p

/-- A 32-bit write to EXBASE_LO or EXBASE_HI, taken while DISABLED; the low 12 bits of EXBASE_LO are discarded (R140). -/
def writeExbase (p : Part) (high : Bool) (v : Reg) : Part :=
  if p.port.state = .disabled then
    if high then { p with port := { p.port with baseHi := v } }
    else { p with port := { p.port with baseLo := v &&& 0xFFFFF000#32 } }
  else p

/-- The registers of the window by offset (R165, Registers). -/
inductive Register
  | ident
  | exstat
  | exbaseLo
  | exbaseHi
  | exctl
  | wake
  | cause
  | causecfg
  deriving DecidableEq, Repr

def registerAt : Nat → Option Register
  | 0x00 => some .ident
  | 0x04 => some .exstat
  | 0x08 => some .exbaseLo
  | 0x0C => some .exbaseHi
  | 0x10 => some .exctl
  | 0x14 => some .wake
  | 0x18 => some .cause
  | 0x1C => some .causecfg
  | _ => none

/-- What a register reads as (R139; R165, Registers). -/
def readRegister (p : Part) : Register → Reg
  | .ident => Config.ident
  | .exstat => BitVec.ofNat 32 (p.device.value + 16 * p.port.state.value)
  | .exbaseLo => p.port.baseLo
  | .exbaseHi => p.port.baseHi
  | .exctl => BitVec.ofNat 32 (boolNat p.port.enabled + p.port.count * 2 ^ 8 + p.port.interval * 2 ^ 16)
  | .wake => 0#32
  | .cause => p.att.pending.setWidth 32
  | .causecfg => p.att.enable.setWidth 32 ||| ((p.att.route.setWidth 32) <<< 16)

/-- The bytes of the register window, each register least significant byte first (R139, R163). -/
def windowBytes (p : Part) : List Byte :=
  [Register.ident, .exstat, .exbaseLo, .exbaseHi, .exctl, .wake, .cause, .causecfg].flatMap fun r => leBytes 4 (readRegister p r).toNat

/-- A read of any width returns the bytes addressed (R139); it changes nothing. -/
def readWindow (p : Part) (offset width : Nat) : List Byte := sliceAt (windowBytes p) offset width

/-- A register write of any width: narrower than 32 bits, to a read-only register, or while RESET# is low it is ignored;
otherwise it is the write of that register (R139). DESIGN CHOICE (log 54): a write wider than 32 bits, or of 32 bits at an offset that is
not a multiple of 4, is ignored. -/
def writeRegister (p : Part) (w : RegWrite) (io : List Xfer) : Part :=
  if p.on && w.width == 4 then
    match registerAt w.offset with
    | some .exbaseLo => writeExbase p false w.value
    | some .exbaseHi => writeExbase p true w.value
    | some .exctl => writeExctl p w.value io
    | some .wake => askScan p
    | some .cause => writeCause p w.value
    | some .causecfg => writeCausecfg p w.value
    | some .ident => p
    | some .exstat => p
    | none => p
  else p

/-! ## Transfers on a request's own buffer -/

/-- The port makes the buffer transfers of a request whose enablement has not ended, while bus mastering is on (R152, R161). -/
def bufferOpen (p : Part) (r : Request) : Bool := decide (p.port.enablement = some r.enablement) && p.pins.mastering

end Sys2Proof.Machine
end

