-- ==== Sys2Proof/Machine/Work.lean ====
section
/-! DEFINITION. The work of the Catalogue Unit, operation by operation: appending records and what follows them (R10,
R127, R128), snapshots (R130, R131), erases (R116), placing and programming an image (R113, R122), reclaim and moves
(R118 to R123), reading a baseline back (R20), and the steps of formatting and of mount's end (R135, R138). -/

namespace Sys2Proof.Machine

/-! ## The list of what is still to do -/

/-- Changes the Catalogue Unit. -/
def Part.withCat (p : Part) (f : CatUnit → CatUnit) : Part := { p with cat := f p.cat }

/-- Puts operations before what is still to do. -/
def push (ops : List CuOp) (p : Part) : Part := p.withCat fun c => { c with todo := ops ++ c.todo }

/-- Leaves nothing to do but these. -/
def onlyDo (ops : List CuOp) (p : Part) : Part := p.withCat fun c => { c with todo := ops }

/-- Asks a bank for an operation and waits for its outcome. -/
def issue (op : BankOp) (w : CuAwait) (p : Part) : Part :=
  { p with store := p.store.ask .catalogue op, cat := { p.cat with await := some w } }

/-- Ends the request with a code and a result area. -/
def finishWith (code : Code) (items : List (Nat × List Byte)) (p : Part) : Part := onlyDo [.finish code (resultArea items)] p

/-- A unit has entered the bad-unit list and waits for its BAD record (R111). -/
def waitBad (u : Nat) (p : Part) : Part := p.withCat fun c => { c with badWaiting := c.badWaiting ++ [u] }

/-! ## The journal cannot accept a record -/

/-- The two numbers DISCARD reports (R16). -/
def discardItems (c : CatUnit) : List (Nat × List Byte) := [(64, leBytes 2 c.dropped), (66, leBytes 2 c.ceased)]

/-- Clears the mark of a station. -/
def clearMark (n : Nat) (p : Part) : Part := p.modifyStation n fun s => { s with mark := .clear }

/-- What a full journal brings about for each writer (R10, R16, R100, R127). DESIGN CHOICE (log 47): a request that ends so has a result
area of zeros, whatever it had reached, but for DISCARD, whose two numbers R16 gives. -/
def fullFor (w : Writer) (p : Part) : Part :=
  match w with
  | .stationMark n => clearMark n p
  | .formatMark => { p with line := { p.line with formatMark := .clear } }
  | .move m => p.withStore fun s => s.skipUnit m.src.run.unit
  | .badUnit _ => p
  | .snapshotPart => mapMarks Mark.restore (p.withCat fun c => { c with todo := c.todo.tail })
  | .discard _ => finishWith .storeFault (discardItems p.cat) p
  | .enrol => finishWith .storeFault [] p
  | .commit _ => finishWith .storeFault [] p
  | .revert _ => finishWith .storeFault [] p
  | .retire _ => finishWith .storeFault [] p
  | .ruleLoad => finishWith .storeFault [] p
  | .ruleDelete _ => finishWith .storeFault [] p
  | .stationDefine => finishWith .storeFault [] p
  | .stationUndefine => finishWith .storeFault [] p
  | .paramSet => finishWith .storeFault [] p

/-- The journal is full (R127): STORE_FAULT is raised, BAD records that wait are not written, the writer ends. -/
def journalFull (w : Writer) (p : Part) : Part :=
  fullFor w ((p.raise .storeFault).withCat fun c => { c with badWaiting := [] })

/-! ## Writing records -/

/-- Programs the record at the head of a list under its number, in the place the ring gives; without a place the number is
given back and the journal is full (R127, R128). -/
def putSlot (again : Bool) (recs : List JournalRecord) (num : Nat) (w : Writer) (p : Part) : Part :=
  match slotPlace p.store p.cat.writeUnit again with
  | .here u =>
    issue (.programSlot u (p.store.unit u).slots (slotEncode num (recs.headD .commitEnd))) (.slot recs num w)
      (p.withCat fun c => { c with writeUnit := some u })
  | .afterErase u => issue (.eraseUnit u) (.ringErase recs num w again) p
  | .nowhere => journalFull w (p.withCat fun c => { c with nextSeq := num })

/-- Gives the next sequence number to a record and programs it (R125). -/
def putRecord (recs : List JournalRecord) (w : Writer) (p : Part) : Part :=
  if top32 < p.cat.nextSeq then journalFull w p
  else putSlot false recs p.cat.nextSeq w (p.withCat fun c => { c with nextSeq := c.nextSeq + 1 })

/-- The room test of R127. -/
def roomTest (p : Part) (k : Nat) : Bool := decide (k + Config.largestSnapshot ≤ freeRoom p)

/-! ## The change that follows complete records (R10) -/

/-- The number of a generation, 0 for none (R163). -/
def numberOf (g : Option Generation) : Nat := (g.map Generation.number).getD 0

/-- Ends the request OK once the change is made, after the BAD records that wait. DESIGN CHOICE (log 49): where the slot of the request's
own record failed, the change of R10 stands before the BAD record of R128 is appended, and the completion comes after it. -/
def thenOk (items : List (Nat × List Byte)) (p : Part) : Part := push [.flushBad, .finish .ok (resultArea items)] p

/-- ENROL's change (R14). -/
def applyEnrol (p : Part) : Part :=
  match p.cat.req, p.cat.run with
  | some r, some run =>
    let e := enrolledEntry p r run
    let replaced := (findKey p.cat.entries r.key).bind Entry.staged
    let p' := match findKey p.cat.entries r.key with
      | some old => p.modifyEntry old.uid (Entry.enrolled r.enrolRuleSet p.cat.buffer run)
      | none => (p.withEntries fun es => es ++ [e]).withCat fun c => { c with nextUid := c.nextUid + 1 }
    thenOk
      [(64, leBytes 4 (numberOf e.staged)), (68, leBytes 4 (crc32 p.cat.buffer)), (72, leBytes 1 run.pages),
       (74, leBytes 2 run.unit), (76, leBytes 4 (numberOf replaced)), (80, leBytes 2 p.cat.overruns)]
      (p'.withStore fun s => (s.addLive run.unit run.pages).dropGen replaced)
  | _, _ => p

/-- COMMIT's change (R15, R19). -/
def applyCommit (f : Nat) (p : Part) : Part :=
  let es := stagedOf p f
  let mine (e : Entry) : Bool := es.any fun x => decide (x.uid = e.uid)
  let p' := p.withStore fun s => es.foldl (fun s e => s.dropGen e.previous) s
  let p' := p'.withEntries fun all => all.map fun e => if mine e then (committed e).emptyPeaks else e
  thenOk [(64, leBytes 4 es.length)] (recompute (uncheck p' mine))

/-- DISCARD's change of one entry (R16). -/
def applyDiscard (k : Key) (p : Part) : Part :=
  match findKey p.cat.entries k with
  | none => p
  | some e =>
    let p' := p.withStore fun s => s.dropGen e.staged
    let p' := p'.withEntries fun es => (es.map fun x => if x.uid = e.uid then discarded x else x).filter Entry.exists_
    push [.flushBad] (p'.withCat fun c => { c with dropped := c.dropped + 1, ceased := if e.current.isSome then c.ceased else c.ceased + 1 })

/-- REVERT's change (R17, R19). -/
def applyRevert (k : Key) (p : Part) : Part :=
  match findKey p.cat.entries k with
  | none => p
  | some e =>
    let p' := p.withStore fun s => s.dropGen e.current
    let p' := p'.modifyEntry e.uid fun x => (reverted x).emptyPeaks
    thenOk [(64, leBytes 4 (numberOf e.previous)), (68, leBytes 4 (numberOf e.current))]
      (recompute (uncheck p' fun x => decide (x.uid = e.uid)))

/-- A lane that has set up against a removed entry sets its removal mark (R73). -/
def LaneRegs.noteRemoval (l : LaneRegs) (uid : Nat) : LaneRegs :=
  if l.setup.any fun x => decide (x.entry = uid) then { l with removed := true } else l

/-- RETIRE's change (R18, R19, R73). -/
def applyRetire (k : Key) (p : Part) : Part :=
  match findKey p.cat.entries k with
  | none => p
  | some e =>
    let p' := p.withStore fun s => e.generations.foldl (fun s g => s.dropLive g.unit g.pages) s
    let p' := p'.withEntries fun es => es.filter fun x => decide (x.uid ≠ e.uid)
    let p' := { p' with engine :=
      { p'.engine with laneA := p'.engine.laneA.noteRemoval e.uid, laneB := p'.engine.laneB.noteRemoval e.uid } }
    thenOk [(64, leBytes 1 e.generations.length)] (recompute p')

/-- The pages of a set's image stop being live (R35, R36). -/
def dropImage (s : Store) : Option SetImage → Store
  | none => s
  | some i => s.dropLive i.unit i.pages

/-- RULE_LOAD's change (R35). DEDUCED (log 37): the rule count held before is the recorded count where the set replaced is FAULTED. -/
def applyRuleLoad (p : Part) : Part :=
  match p.cat.req, p.cat.run with
  | some r, some run =>
    let img := loadedImage p r run
    let old := ruleSetAt p.rules r.loadSet
    let p' := { p with rules := putRuleSet p.rules r.loadSet (.loaded img (rulesOf p.cat.buffer r.loadCount)) }
    thenOk
      [(64, leBytes 1 r.loadCount), (65, leBytes 1 old.count), (66, leBytes 2 (rulesHeldBeside p.rules r.loadSet + r.loadCount)),
       (68, leBytes 4 img.crc), (72, leBytes 2 run.unit), (74, leBytes 1 run.pages)]
      (p'.withStore fun s => dropImage (s.addLive run.unit run.pages) old.image)
  | _, _ => p

/-- The deletion of a set (R36). -/
def applyRuleDelete (n : Nat) (p : Part) : Part :=
  let old := ruleSetAt p.rules n
  let p' := { p with rules := putRuleSet p.rules n .absent }
  thenOk [(65, leBytes 1 old.count), (66, leBytes 2 (rulesHeldBeside p.rules n))] (p'.withStore fun s => dropImage s old.image)

/-- STATION_DEFINE's change; the record settles the mark (R87). -/
def applyStation (f : Request → Station → Station) (p : Part) : Part :=
  match p.cat.req with
  | none => p
  | some r =>
    let n := r.defineStation
    let p' := recompute (p.modifyStation n fun s => { f r s with mark := s.mark.settle })
    thenOk [(64, leBytes 1 n), (65, leBytes 1 r.defineAction), (66, leBytes 1 (p'.line.station n).state.value)] p'

/-- The place as a DEFINE asks for it (R87). -/
def defineAs (r : Request) (s : Station) : Station := s.define (orderOf r.defineOrder) r.defineName

/-- PARAM_SET's change (R102). -/
def applyParams (p : Part) : Part :=
  match p.cat.req with
  | none => p
  | some r =>
    let ps := askedParams r
    thenOk
      [(64, leBytes 4 ps.staleness), (68, leBytes 1 (boolNat ps.operatorAdmit)), (69, leBytes 1 (boolNat ps.override)),
       (70, leBytes 1 (boolNat (decide (ps.staleness ≠ r.staleness))))]
      (takeParams p ps)

/-- What follows when a writer's records are complete (R10, R37, R100, R119): the change, then the BAD records that wait (R128;
DESIGN CHOICE, log 49). -/
def written (w : Writer) (p : Part) : Part :=
  match w with
  | .enrol => applyEnrol p
  | .commit f => applyCommit f p
  | .discard k => applyDiscard k p
  | .revert k => applyRevert k p
  | .retire k => applyRetire k p
  | .ruleLoad => applyRuleLoad p
  | .ruleDelete n => applyRuleDelete n p
  | .stationDefine => applyStation defineAs p
  | .stationUndefine => applyStation (fun _ => Station.undefine) p
  | .paramSet => applyParams p
  | .stationMark n => push [.flushBad] (p.modifyStation n fun s => { s with mark := s.mark.settle })
  | .formatMark => push [.flushBad] { p with line := { p.line with formatMark := p.line.formatMark.settle } }
  | .move m => push [.flushBad] (relocate p m)
  | .badUnit _ => push [.flushBad] p
  | .snapshotPart => p

/-! ## Snapshots and erases -/

/-- The good record units whose programmed slots were all written before the snapshot's SNAP_BEGIN, in ring order (R131). -/
def oldRecords (p : Part) : List Nat :=
  (ringAfter p.store (p.cat.writeUnit.getD 0)).filter fun u => decide (0 < (p.store.unit u).slots) && decide (u ∉ p.cat.fresh)

/-- SNAP_END is complete: marks are settled, and the old record units are erased (R130, R131). -/
def snapshotClosed (p : Part) : Part :=
  let p' := (mapMarks Mark.settle p).withCat fun c => { c with appended := false, snapDone := true }
  if p.device = .formatting then p' else push [.erase (oldRecords p') .snapshotEnd, .flushBad] p'

/-- The next record of a snapshot, or its SNAP_END (R130). -/
def snapshotItem (items : List SnapItem) (count : Nat) (p : Part) : Part :=
  match items with
  | [] => push [.write [.snapEnd count] .snapshotPart, .snapClosed] p
  | i :: rest =>
    let recs := snapRecords p i
    push [.write recs .snapshotPart, .snapItems rest (if i = .start then 0 else count + recs.length)] (snapRead p i)

/-- A unit may be erased for a reason: never a pinned unit, one that holds live pages, or one in the bad-unit list; in
FORMATTING the units were chosen by R138. -/
def mayErase (s : Store) (u : Nat) : EraseWhy → Bool
  | .formatting => true
  | _ => (s.unit u).readers == 0 && (s.unit u).live == 0 && !(s.unit u).bad

/-- A failed erase of a list is recorded before further work, but for the record units of R131, of mount's step 3 and of formatting
(R111, R131, R135, R138). -/
def EraseWhy.recordsAtOnce : EraseWhy → Bool
  | .between => true
  | .inline => true
  | .step => true
  | .snapshotEnd => false
  | .mountOld => false
  | .formatting => false

/-- The next erase of a list; erases between requests stop for a request taken meanwhile (R116). DESIGN CHOICE (log 39): in inline
reclaim the whole list of step 1 of R120 is erased, though its first erase makes a unit FREE. -/
def eraseNext (us : List Nat) (why : EraseWhy) (p : Part) : Part :=
  match us with
  | [] => p
  | u :: rest =>
    if why = .between ∧ p.cat.beginFirst then p
    else if mayErase p.store u why then issue (.eraseUnit u) (.erase u rest why) p
    else push [.erase rest why] p

/-- Writes the BAD records that wait, each naming one unit (R111, R128); in FORMATTING only after the empty snapshot. -/
def flushBad (p : Part) : Part :=
  if p.device = .formatting ∧ ¬ p.cat.snapDone then p
  else push (p.cat.badWaiting.map fun u => .append (some 1) false (.badUnit u)) (p.withCat fun c => { c with badWaiting := [] })

/-! ## Placing and programming an image -/

/-- Programs the next page of the request's image (R113, R14). -/
def programImage (run : PageRun) (page : Nat) (second : Bool) (p : Part) : Part :=
  issue (.programPage run.unit (run.first + page) (imagePage p.cat.buffer page)) (.program run page second) p

/-- Places the request's image; where it cannot be placed inline reclaim comes first, and STORE_FULL if that has left no FREE unit
(R14, R35, R113, R120). DESIGN CHOICE (log 47): a request so ended has a result area of zeros, though its CRC and page count were
reached. -/
def placeImage (second afterInline : Bool) (p : Part) : Part :=
  if afterInline && !anyFree p.store then finishWith .storeFull [] p
  else
  match placeRun p.store (pagesFor p.cat.buffer.length) with
  | (some run, s) => programImage run 0 second { p with store := s, cat := { p.cat with run := some run, unplaced := false } }
  | (none, s) =>
    let p' := { p with store := s }
    if afterInline then finishWith .storeFull [] p' else push [.inlineReclaim, .place second true] p'

/-- The writer of a request that programs an image. -/
def imageWriter (p : Part) : Writer :=
  match p.cat.req with
  | some r => if r.kind = .ruleLoad then .ruleLoad else .enrol
  | none => .enrol

/-- A page program has failed (R121): the unit is bad, its BAD record comes first, its live images are evacuated. -/
def programFailed (unit page : Nat) (left : List Byte) (next : CuOp) (p : Part) : Part :=
  push [.flushBad, .evacuate unit 0, next]
    ((waitBad unit (p.withStore fun s => (s.pageProgrammed unit page left).markBad unit)).withCat fun c => { c with unplaced := false })

/-! ## Reclaim and moves -/

/-- Chooses a unit and acts on it (R118): erases it, or moves the image of lowest first page. -/
def chooseUnit (why : MoveWhy) (eraseWhy : EraseWhy) (p : Part) : Part :=
  match pickUnit (Config.unitCount + 1) p.store with
  | (none, s) => { p with store := s.stopRun }
  | (some u, s) =>
    let s := if s.openUnit = some u then s.fillUnit u else s
    let p' := { p with store := s }
    if (s.unit u).live = 0 then push [.erase [u] eraseWhy] p'
    else
      match imageIn p' u 0 with
      | some x => push [.move x.1 false why false] p'
      | none => p'

/-- One turn of inline reclaim (R120): it stops once a FREE unit exists or no step can be made. -/
def inlineTurn (p : Part) : Part :=
  if anyFree p.store || p.cat.unplaced then p
  else if (pickUnit (Config.unitCount + 1) p.store).1.isNone then p.withStore Store.stopRun
  else chooseUnit .inline .inline (push [.erasePending .inline, .inlineLoop] p)

/-- Moves the live images of a condemned unit from a first page upward (R121). -/
def evacuate (unit page : Nat) (p : Part) : Part :=
  if p.cat.unplaced then p
  else
    match imageIn p unit page with
    | none => p
    | some x => push [.move x.1 false .evacuation false, .evacuate unit (x.2.run.first + 1)] p

/-- A move that cannot be placed (R118, R121). -/
def moveUnplaced (ref : ImageRef) (second : Bool) (why : MoveWhy) (afterInline : Bool) (p : Part) : Part :=
  match why with
  | .step => p.withStore Store.stopRun
  | .inline => (p.withStore Store.stopRun).withCat fun c => { c with unplaced := true }
  | .evacuation =>
    if afterInline then (p.raise .storeFault).withCat fun c => { c with unplaced := true }
    else push [.inlineReclaim, .move ref second why true] p

/-- Begins a move: its run is placed and its first page read (R119). -/
def beginMove (ref : ImageRef) (second : Bool) (why : MoveWhy) (afterInline : Bool) (p : Part) : Part :=
  match spanOf p ref with
  | none => p
  | some src =>
    match placeRun p.store src.run.pages with
    | (some run, s) =>
      issue (.readPage src.run.unit src.run.first) (.moveRead { ref := ref, src := src, target := run, second := second, why := why } 0)
        { p with store := s, cat := { p.cat with copy := [], unplaced := false } }
    | (none, s) => moveUnplaced ref second why afterInline { p with store := s }

/-- The image stays at its source: STORE_FAULT, and the skip mark of a source that is not condemned (R123). -/
def stayAtSource (unit : Nat) (p : Part) : Part := (p.raise .storeFault).withStore fun s => s.skipUnit unit

/-- A move abandoned for an uncorrectable read or a CRC difference; a generation is reported (R123, R60). -/
def abandonMove (m : Move) (p : Part) : Part :=
  let p' := stayAtSource m.src.run.unit p
  match m.ref with
  | .gen uid number => p'.withCat fun c => { c with reports := c.reports ++ [{ uid := uid, number := number }] }
  | .set _ => p'

/-- The last page of a copy is programmed: its CRC decides (R119). -/
def copyDone (m : Move) (p : Part) : Part :=
  if crc32 (p.cat.copy.take m.src.length) = m.src.crc then push [.append (some 1) false (.move m)] p else abandonMove m p

/-! ## Integrity reports -/

/-- A report sets the damaged flag where the generation is still current (R5). -/
def applyReport (d : DamageReport) (p : Part) : Part :=
  p.modifyEntry d.uid fun e => if (e.current.map Generation.number) = some d.number then { e with damaged := true } else e

/-- The Catalogue Unit takes the oldest report (R5). -/
def takeReport (p : Part) : Part :=
  match p.cat.reports with
  | [] => p
  | d :: ds => if p.on then applyReport d (p.withCat fun c => { c with reports := ds }) else p

/-- A lane's report, and before it those that have arrived and wait, are taken in arrival order (R5, R60). DEDUCED (log 46): they
are taken in the act that makes the report, so that the flag stands when the admission is decided (R81). -/
def reportAtOnce (d : DamageReport) (p : Part) : Part :=
  (p.cat.reports ++ [d]).foldl (fun q d => applyReport d q) (p.withCat fun c => { c with reports := [] })

/-! ## Reading a baseline back -/

/-- The generation a READ_BASELINE chooses, and its entry (R20). -/
def chosenGeneration (p : Part) (r : Request) : Option (Entry × Generation) :=
  (findKey p.cat.entries r.key).bind fun e =>
    (match r.generation with
      | 1 => e.staged
      | 2 => e.current
      | _ => e.previous).map fun g => (e, g)

/-- The request in hand, with the entry and the generation it reads. -/
def readingOf (p : Part) : Option (Request × Entry × Generation) :=
  p.cat.req.bind fun r => (chosenGeneration p r).map fun x => (r, x)

/-- The generation read fails its integrity check: STORE_FAULT; a current generation's entry is damaged (R20, R5). -/
def readBackFailed (e : Entry) (g : Generation) (p : Part) : Part :=
  let p' := p.raise .storeFault
  let p' := if (e.current.map Generation.number) = some g.number then p'.modifyEntry e.uid fun x => { x with damaged := true } else p'
  push [.readBackEnd .storeFault] p'

/-- A page has been read for READ_BASELINE: its bytes within the image go to the host buffer (R20). -/
def readBackPage (page : Nat) (data : List Byte) (r : Request) (e : Entry) (g : Generation) (p : Part) : Part :=
  let bytes := data.take (g.length - page * Config.pageBytes)
  let address := r.address + page * Config.pageBytes
  if bufferOpen p r && addressOk address bytes.length then
    let p' := (p.hostWrite address bytes).withCat fun c => { c with copy := c.copy ++ bytes }
    if page + 1 < g.pages then push [.readBack (page + 1)] p'
    else if crc32 p'.cat.copy = g.crc then push [.readBackEnd .ok] p'
    else readBackFailed e g p'
  else push [.readBackEnd .transferError] p

/-- READ_BASELINE ends: the unit is unpinned, the result handed over (R20). DESIGN CHOICE (log 35): ended other than OK, its result
area is zero throughout. -/
def readBackEnd (code : Code) (p : Part) : Part :=
  let items := match code, readingOf p with
    | .ok, some (_, _, g) => [(64, leBytes 4 g.number), (68, leBytes 2 g.length), (72, leBytes 4 g.crc)]
    | _, _ => []
  let p' := match p.cat.pin with
    | some u => p.withStore fun s => s.unpinUnit u
    | none => p
  finishWith code items (p'.withCat fun c => { c with pin := none })

/-! ## Formatting -/

/-- The record area taken for a requested size, and whether it was clamped (R137). -/
def takenArea (asked : Nat) : Nat :=
  if asked = 0 then Config.defaultRecordUnits else clampTo Config.minRecordUnits Config.maxRecordUnits asked

/-- R is set, the write position with it, and the empty snapshot begun (R138, steps 5 and 6). -/
def formatWrite (p : Part) : Part :=
  let R := takenArea ((p.cat.req.map Request.recordArea).getD 0)
  let s := { p.store with recordSize := some R }
  push [.snapItems ([.start] ++ badItems s ++ [.param]) 0, .formatEmpty]
    { p with store := s, cat := { p.cat with writeUnit := (goodRecords s).head?, fresh := [], snapDone := false } }

/-- Step 7 of R138, and the values of R136: no entry, no rule set, no station, the default parameters, no mark. The station
states follow at the recomputation (R91). -/
def emptyCatalogue (p : Part) : Part :=
  { p with
    cat := { p.cat with entries := [], reports := [] }
    rules := p.rules.map fun _ => .absent
    line := { p.line with
      params := .defaults, formatMark := .clear
      stations := p.line.stations.map fun s => { Station.blank with state := s.state, counts := s.counts } } }

/-- Step 8 of R138: every unit at its erased values, good image units FREE, units in the list BAD. -/
def formattedUnits (s : Store) : Store :=
  { s with
    units := s.units.mapIdx fun u x =>
      { x with
        cls := if s.isImage u then (if x.bad then some .bad else some .free) else none
        live := 0, readers := 0, weak := false, pending := false, skip := false, passed := false }
    openUnit := none, lastBank := none }

/-- The store of an UNFORMATTED part (R136): R and the bad-unit list unknown, no class, no live page. -/
def unknownUnits (s : Store) : Store :=
  { s with
    units := s.units.map fun x => { x with bad := false, cls := none, live := 0, pending := false, skip := false, passed := false }
    openUnit := none, lastBank := none, recordSize := none, runFlag := false }

/-- The empty snapshot is written, or cannot be (R138). DEDUCED (log 23): where it cannot, the next sequence number is the one given back
(R128), with the other values of R136. DESIGN CHOICE (log 47): the result area is then zero. DESIGN CHOICE (log 58): the BAD record of a
slot that failed in step 6 is appended after steps 7 and 8, before step 9. -/
def formatEmpty (p : Part) : Part :=
  if p.cat.snapDone then
    push [.flushBad, .formatReady] (recompute ({ emptyCatalogue p with gap := false }.withStore formattedUnits))
  else
    finishWith .storeFault [] (recompute ({ (emptyCatalogue p).raise .storeFault with device := .unformatted }.withStore unknownUnits))

/-- Step 9 of R138: NO_FORMAT, READY, OK. -/
def formatReady (p : Part) : Part :=
  let asked := (p.cat.req.map Request.recordArea).getD 0
  let p' := { p with line := { p.line with state := .noFormat }, device := .ready }
  finishWith .ok
    [(64, leBytes 1 (p.store.recordSize.getD 0)), (65, leBytes 1 (boolNat (decide (asked ≠ 0 ∧ takenArea asked ≠ asked)))),
     (66, leBytes 2 p.store.badCount)]
    (recompute (p'.raise .lineState))

/-! ## The end of mount -/

/-- The dirty units (R135, step 5). -/
def dirtyUnits (s : Store) : List Nat :=
  allUnits.filter fun u => s.isImage u && !(s.unit u).bad && decide (0 < (s.unit u).pages) && (s.unit u).live == 0

/-- The next dirty unit of a bank, none while an erase of the sweep runs on that bank. -/
def nextSwept (s : Store) (running : List Nat) (b : Bank) : List Nat :=
  if running.any fun u => decide (bankOf u = b) then []
  else ((dirtyUnits s).find? fun u => decide (bankOf u = b)).toList

/-- Asks each bank with no erase of the sweep outstanding for its next one, in ascending order; with none left the sweep is over
(R135, step 5). -/
def sweepOn (running : List Nat) (p : Part) : Part :=
  let next := nextSwept p.store running .even ++ nextSwept p.store running .odd
  if running ++ next = [] then p
  else
    { p with
      store := next.foldl (fun s u => s.ask .catalogue (.eraseUnit u)) p.store
      cat := { p.cat with await := some (.sweep (running ++ next)) } }

/-- An erase of the sweep has ended (R109, R111, R135). After a failed one the erase of the other bank is awaited, the BAD records are
appended, and the sweep goes on (DESIGN CHOICE, log 41). -/
def sweepOutcome (u : Nat) (o : EraseOutcome) (running : List Nat) (p : Part) : Part :=
  let left := running.filter fun x => decide (x ≠ u)
  let p' := match o with
    | .done => p.withStore fun s => s.unitErased u
    | .failed erased => waitBad u (p.withStore fun s => s.eraseFailed u erased)
  if p'.cat.badWaiting = [] then sweepOn left p'
  else if left = [] then push [.flushBad, .mountSweep] p'
  else p'.withCat fun c => { c with await := some (.sweep left) }

/-- The class of an image unit after mount (R124). -/
def classAfterMount (x : EraseUnit) : UnitClass :=
  if x.bad then (if x.live = 0 then .bad else .full) else if x.pages = 0 then .free else .full

/-- Step 6 of R135: the class of every image unit. -/
def setClasses (s : Store) : Store :=
  { s with units := s.units.mapIdx fun u x => { x with cls := if s.isImage u then some (classAfterMount x) else none } }

/-- Steps 6 to 9 of R135: the classes, the line state from the recorded format, LINE_STATE, READY. The stations take their states
and counts without a STATION cause (DEDUCED, log 38): R91 does not list mount among its events, and Worked Sequences gives LINE_STATE
as the cause of a mount after which stations are UNCHECKED. -/
def mountReady (p : Part) : Part :=
  let p' := p.withStore setClasses
  let p' := { p' with
    device := .ready, line := { p'.line with state := if p'.line.active.isSome then .running else .noFormat } }
  askScan (settleStations (p'.raise .lineState))

/-! ## One operation -/

/-- Makes the room test where there is one, and writes the writer's records (R127). A mark settled meanwhile has none. DESIGN CHOICE
(log 62): the value of a STATION or FORMAT record (R100) is read here, before any erase that prepares the next record unit. -/
def appendRecords (k : Option Nat) (again : Bool) (w : Writer) (p : Part) : Part :=
  if (recordsOf p w).isEmpty then p
  else if k.all (roomTest p) then push [.write (recordsOf p w) w] (readFor p w)
  else if again then journalFull w p
  else push [.snapshot, .append k true w] p

/-- Carries out one operation of the list. -/
def workOp (op : CuOp) (p : Part) : Part :=
  match op with
  | .append k again w => appendRecords k again w p
  | .write [] w => written w p
  | .write (r :: rs) w => putRecord (r :: rs) w p
  | .flushBad => flushBad p
  | .snapshot =>
    if snapshotSize p ≤ freeRoom p then push [.snapItems (snapshotItems p) 0] (p.withCat fun c => { c with fresh := [], snapDone := false })
    else p
  | .snapItems items count => snapshotItem items count p
  | .snapClosed => snapshotClosed p
  | .erase us why => eraseNext us why p
  | .erasePending why => push [.erase (erasable p.store) why] p
  | .place second afterInline => placeImage second afterInline p
  | .inlineReclaim => push [.erasePending .inline, .inlineLoop] (p.withCat fun c => { c with unplaced := false })
  | .inlineLoop => inlineTurn p
  | .reclaimStep => chooseUnit .step .step p
  | .evacuate unit page => evacuate unit page p
  | .move ref second why afterInline => beginMove ref second why afterInline p
  | .moveGivenUp ref =>
    match spanOf p ref with
    | some src => stayAtSource src.run.unit p
    | none => p
  | .imageGivenUp => finishWith .storeFault [] (p.raise .storeFault)
  | .readBack page =>
    match readingOf p with
    | some (_, _, g) => issue (.readPage g.unit (g.first + page)) (.readBack page) p
    | none => p
  | .discardEnd => finishWith .ok (discardItems p.cat) p
  | .readBackEnd code => readBackEnd code p
  | .finish code result =>
    match p.cat.req with
    | some r => complete (handOver p) r code (some result) none
    | none => p
  | .formatWrite => formatWrite p
  | .formatEmpty => formatEmpty p
  | .formatReady => formatReady p
  | .mountSweep => sweepOn [] p
  | .mountReady => mountReady p

/-- The Catalogue Unit has done its work: it is between requests, and the scratch items are empty. -/
def endJob (p : Part) : Part :=
  p.withCat fun c =>
    { c with
      work := .idle, req := none, buffer := [], overruns := 0, run := none, dropped := 0, ceased := 0, copy := [], unplaced := false }

/-- Works on until the unit waits for an outcome or has done its work; the run flag is tested at each change of the FREE count (R117). -/
def cuRun : Nat → Part → Part
  | 0, p => p
  | n + 1, p =>
    if p.cat.await.isSome then p
    else
      match p.cat.todo with
      | [] => endJob p
      | op :: rest => cuRun n (freeTested p (workOp op (onlyDo rest p)))

/-- What follows every piece of the Catalogue Unit's work: between requests the run flag is tested (R117), and the counts are handed
over (R124). DESIGN CHOICE (log 56): while the unit then idles no further test is made until the FREE count changes or it has worked
again. -/
def cuSettle (p : Part) : Part := handOver (if p.cat.work = .idle then reclaimTest p else p)

/-- The Catalogue Unit works on from where it stands. -/
def cuWork (p : Part) : Part := cuSettle (cuRun Config.workBound p)

/-- The Catalogue Unit takes an outcome and works on. -/
def cuResume (p : Part) (f : Part → Part) : Part := cuWork (freeTested p (f (p.withCat fun c => { c with await := none })))

/-! ## Outcomes handed to the Catalogue Unit -/

/-- A slot program has ended (R108, R128). -/
def slotOutcome (u slot : Nat) (data : List Byte) (o : ProgOutcome) (recs : List JournalRecord) (num : Nat) (w : Writer) (p : Part) : Part :=
  match o with
  | .done =>
    push [.write recs.tail w]
      ((p.withStore fun s => s.slotProgrammed u slot data).withCat fun c =>
        { c with fresh := if u ∈ c.fresh then c.fresh else c.fresh ++ [u], appended := c.appended || decide (w ≠ .snapshotPart) })
  | .failed left => putSlot true recs num w (waitBad u (p.withStore fun s => (s.slotProgrammed u slot left).markBad u))

/-- A writer's records are one commit group already begun, or part of a snapshot: no other record may come between (R129, R130). -/
def mustFollowOn (recs : List JournalRecord) (w : Writer) : Bool :=
  match w with
  | .snapshotPart => true
  | .commit _ => (recs.head?.map JournalRecord.kindCode) != some 9
  | _ => false

/-- An erase that prepares the next record unit of the ring has ended (R127). Where it has failed, the BAD record comes first and the
writer's records are then made anew under the numbers that follow (R111); inside a commit group or a snapshot it comes after them
(DEDUCED, log 21), and so it does where the record is one whose slot has failed and which is written again under its number (R128).
DESIGN CHOICE (log 62): after an erase that is done the records are written as they were read before it. -/
def ringOutcome (u : Nat) (o : EraseOutcome) (recs : List JournalRecord) (num : Nat) (w : Writer) (again : Bool) (p : Part) : Part :=
  match o with
  | .done => putSlot again recs num w (p.withStore fun s => s.unitErased u)
  | .failed erased =>
    let p' := waitBad u (p.withStore fun s => s.eraseFailed u erased)
    if again || mustFollowOn recs w then putSlot again recs num w p'
    else push [.flushBad, .append none false w] (p'.withCat fun c => { c with nextSeq := num })

/-- An erase of a list has ended (R109, R111). -/
def eraseOutcome (u : Nat) (o : EraseOutcome) (rest : List Nat) (why : EraseWhy) (p : Part) : Part :=
  match o with
  | .done => push [.erase rest why] (p.withStore fun s => s.unitErased u)
  | .failed erased =>
    let p' := p.withStore fun s => s.eraseFailed u erased
    if why = .formatting then push [.erase rest why] p'
    else push ((if why.recordsAtOnce then [.flushBad] else []) ++ [.erase rest why]) (waitBad u p')

/-- A page program of the request's image has ended (R113, R121, R122). -/
def programOutcome (unit page : Nat) (data : List Byte) (o : ProgOutcome) (run : PageRun) (i : Nat) (second : Bool) (p : Part) : Part :=
  match o with
  | .done =>
    let p' := p.withStore fun s => s.pageProgrammed unit page data
    if i + 1 < run.pages then programImage run (i + 1) second p' else push [.append (some 1) false (imageWriter p')] p'
  | .failed left => programFailed unit page left (if second then .imageGivenUp else .place true false) p

/-- A page program of a move has ended (R119, R123). -/
def moveProgramOutcome (unit page : Nat) (data : List Byte) (o : ProgOutcome) (m : Move) (i : Nat) (p : Part) : Part :=
  match o with
  | .done =>
    let p' := p.withStore fun s => s.pageProgrammed unit page data
    if i + 1 < m.src.run.pages then
      issue (.readPage m.src.run.unit (m.src.run.first + (i + 1))) (.moveRead m (i + 1)) p'
    else copyDone m p'
  | .failed left => programFailed unit page left (if m.second then .moveGivenUp m.ref else .move m.ref true m.why false) p

/-- A page read of a move has ended: the page is programmed as it arrives, or the move is abandoned (R119, R123). -/
def moveReadOutcome (unit page errors : Nat) (m : Move) (i : Nat) (p : Part) : Part :=
  if readable errors then
    let data := p.store.pageData unit page
    issue (.programPage m.target.unit (m.target.first + i) data) (.moveProgram m i)
      ((p.withStore fun s => s.noteRead unit errors).withCat fun c => { c with copy := c.copy ++ data })
  else abandonMove m p

/-- A page read of READ_BASELINE has ended; a request that a failed transfer has ended meanwhile takes no data (R20, R152). -/
def readBackOutcome (unit page errors : Nat) (i : Nat) (p : Part) : Part :=
  let p' := p.withStore fun s => s.noteRead unit errors
  if p.cat.todo = [] then
    match readingOf p with
    | some (r, e, g) => if readable errors then readBackPage i (p.store.pageData unit page) r e g p' else readBackFailed e g p'
    | none => p'
  else p'

/-- The end of a page read asked for by the Catalogue Unit. -/
def cuReadDone (unit page errors : Nat) (p : Part) : Part :=
  match p.cat.await with
  | some (.moveRead m i) => cuResume p (moveReadOutcome unit page errors m i)
  | some (.readBack i) => cuResume p (readBackOutcome unit page errors i)
  | _ => p

/-- The end of a page program asked for by the Catalogue Unit. -/
def cuProgramDone (unit page : Nat) (data : List Byte) (o : ProgOutcome) (p : Part) : Part :=
  match p.cat.await with
  | some (.program run i second) => cuResume p (programOutcome unit page data o run i second)
  | some (.moveProgram m i) => cuResume p (moveProgramOutcome unit page data o m i)
  | _ => p

/-- The end of a slot program asked for by the Catalogue Unit. -/
def cuSlotDone (unit slot : Nat) (data : List Byte) (o : ProgOutcome) (p : Part) : Part :=
  match p.cat.await with
  | some (.slot recs num w) => cuResume p (slotOutcome unit slot data o recs num w)
  | _ => p

/-- The end of an erase asked for by the Catalogue Unit. -/
def cuEraseDone (unit : Nat) (o : EraseOutcome) (p : Part) : Part :=
  match p.cat.await with
  | some (.ringErase recs num w again) => cuResume p (ringOutcome unit o recs num w again)
  | some (.erase _ rest why) => cuResume p (eraseOutcome unit o rest why)
  | some (.sweep running) => cuResume p (sweepOutcome unit o running)
  | _ => p

end Sys2Proof.Machine
end

