-- ==== Sys2Proof/Machine/Lanes.lean ====
section
/-! DEFINITION. The Check Engine (R62 to R74) and the decision of an admission (R79 to R85): the opening tests and the setup
of a lane, the reading of the two images, the closing notice and what the Line Controller does with it. -/

namespace Sys2Proof.Machine

/-! ## The lanes -/

/-- The registers of a lane. -/
def Engine.lane (e : Engine) : Lane → LaneRegs
  | .a => e.laneA
  | .b => e.laneB

/-- Replaces the registers of a lane. -/
def Part.setLane (p : Part) (l : Lane) (x : LaneRegs) : Part :=
  match l with
  | .a => { p with engine := { p.engine with laneA := x } }
  | .b => { p with engine := { p.engine with laneB := x } }

/-- The lane that takes the head request: Lane A when both are IDLE (R63). -/
def idleLane (e : Engine) : Option Lane :=
  if e.laneA.state = .idle then some .a else if e.laneB.state = .idle then some .b else none

/-- The lane releases its pin (R66, R68). -/
def releasePin (p : Part) (l : Lane) : Part :=
  match (p.engine.lane l).pin with
  | none => p
  | some u => (p.setLane l { p.engine.lane l with pin := none }).withStore fun s => s.unpinUnit u

/-- How a request that reached a comparison or an ending code ends (R69). -/
inductive LaneOutcome
  | verdict (t : Tally)
  | code (c : Code)
  deriving DecidableEq, Repr

/-- A closing notice (R69): what the Line Controller is told. -/
structure Notice where
  req      : Request
  setup    : Option LaneSetup
  resolved : Option Nat
  removed  : Bool
  outcome  : LaneOutcome
  deriving DecidableEq, Repr

/-! ## Lookup -/

/-- The entry with a key and a current generation. -/
def currentAt (es : List Entry) (k : Key) : Option (Entry × Generation) :=
  (es.find? fun e => decide (e.key = k) && e.current.isSome).bind fun e => e.current.map fun g => (e, g)

/-- Lookup (R6): the format's own entry, else the COMMON entry. -/
def lookup (p : Part) (s b f : Nat) : Option (Entry × Generation) :=
  (currentAt p.cat.entries { station := s, block := b, format := f }).or
    (currentAt p.cat.entries { station := s, block := b, format := Config.common })

/-- The comparison format of a request (R65). -/
def resolvedFormat (p : Part) (r : Request) : Option Nat := if r.active then p.line.comparison else some r.selector

/-! ## Recording -/

/-- The three conditions of R70: no removal, the entry exists with the generation noted current, the epoch is the one noted. -/
def stillApplies (p : Part) (n : Notice) (s : LaneSetup) : Bool :=
  !n.removed && decide (p.line.epoch = s.epoch) &&
    (findUid p.cat.entries s.entry).any fun e => decide (e.current.map Generation.number = some s.gen.number)

/-- Offers the measures of a check to an entry's peaks (R61). -/
def offerPeaks (t : Tally) (e : Entry) : Entry :=
  { e with
    bandPeak := if e.bandPeak.usage < t.usage then { usage := t.usage, rule := t.usageRule, offset := t.usageAt } else e.bandPeak
    trackPeak := if e.trackPeak.magnitude < t.track then { magnitude := t.track, offset := t.trackAt } else e.trackPeak }

/-- The Line Controller records the verdict of an ACTIVE CHECK (R70). -/
def recordVerdict (p : Part) (s : LaneSetup) (t : Tally) : Part :=
  afterRecording (p.modifyEntry s.entry fun e => offerPeaks t (stampVerdict p.line t.verdict e))

/-- The Line Controller takes the notice of a CHECK and gives its completion code (R70, R71). -/
def checkNotice (p : Part) (n : Notice) : Part × Code :=
  match n.outcome, n.setup with
  | .code c, _ => (p, c)
  | .verdict t, some s =>
    if n.req.active then (if stillApplies p n s then (recordVerdict p s t, .ok) else (p, .superseded)) else (p, .ok)
  | .verdict _, none => (p, .ok)

/-! ## The ADMIT decision -/

/-- A decision with its reason or basis (R79, R85). -/
structure Answer where
  decision : Decision
  reason   : Code
  deriving DecidableEq, Repr

def refuse (c : Code) : Answer := { decision := .refused, reason := c }
def grant (basis : Code) : Answer := { decision := .granted, reason := basis }

/-- The currency test (R83): epoch, removal mark, lookup made again, generation number. -/
def stillCurrent (p : Part) (n : Notice) : Bool :=
  match n.setup with
  | none => false
  | some s =>
    !n.removed && decide (p.line.epoch = s.epoch) &&
      (lookup p n.req.station n.req.block s.resolved).any fun x => decide (x.1.uid = s.entry ∧ x.2.number = s.gen.number)

/-- A verdict passes when it is CONFORM or TOLERATED (R82). -/
def Verdict.passes : Verdict → Bool
  | .conform => true
  | .tolerated => true
  | _ => false

/-- The last tests of R82: the verdict passes, else POLICY; it is current, else RECHECK. -/
def passOrRefuse (p : Part) (n : Notice) (v : Verdict) : Answer :=
  if ¬ v.passes then refuse .policy else if ¬ stillCurrent p n then refuse .recheck else grant .passed

/-- The table of R82, for an OPERATOR or ENGINEER whose outcome is a verdict. -/
def decideByLine (p : Part) (n : Notice) (v : Verdict) : Answer :=
  match p.line.state with
  | .running =>
    if n.req.engineer then refuse .windowClosed
    else if ¬ p.line.params.operatorAdmit then refuse .operatorDisabled
    else passOrRefuse p n v
  | .changeover => if ¬ n.req.engineer then refuse .changeoverActive else if ¬ n.req.keyOn then refuse .keyOff else passOrRefuse p n v
  | .settling => if ¬ n.req.engineer then refuse .changeoverActive else if ¬ n.req.keyOn then refuse .keyOff else passOrRefuse p n v
  | .noFormat => refuse .noFormat
  | .unready => refuse .noFormat

/-- The decision of R80 to R83. -/
def decideAdmit (p : Part) (n : Notice) : Answer :=
  if n.outcome = .code .transferError then refuse .transferError
  else if n.req.supervisor then
    if ¬ n.req.keyOn then refuse .keyOff
    else if ¬ p.line.params.override then refuse .overrideDisabled
    else { decision := .grantedOverride, reason := .override }
  else
    let st := p.line.station n.req.station
    if n.req.engineer ∧ st.defined ∧ st.heldOut ∧ n.req.keyOn then grant .heldOut
    else
      match n.outcome with
      | .code c => refuse c
      | .verdict t => decideByLine p n t.verdict

/-- A GRANTED_OVERRIDE sets the verdict of the entry to OVERRIDDEN (R84): the conditions. -/
def overrideRecords (p : Part) (n : Notice) : Bool :=
  match n.setup, p.line.comparison with
  | some s, some G => stillApplies p n s && (findUid p.cat.entries s.entry).any fun e => requiredIn p G e
  | _, _ => false

/-- The OVERRIDDEN recording (R84). -/
def recordOverride (p : Part) (s : LaneSetup) : Part := afterRecording (p.modifyEntry s.entry (stampVerdict p.line .overridden))

/-- The decision items of an ADMIT (R85). -/
def admitItems (keyOn : Bool) (a : Answer) (state : LineState) (recorded : Bool) : List (Nat × List Byte) :=
  [(104, leBytes 1 a.decision.value), (105, leBytes 1 (boolNat keyOn)), (106, leBytes 1 state.value),
   (107, leBytes 1 (boolNat recorded)), (108, leBytes 2 a.reason.value)]

/-- The Line Controller takes the notice of an ADMIT: the part after it, the completion code, the decision items (R72, R79, R85). -/
def admitNotice (p : Part) (n : Notice) : Part × Code × List (Nat × List Byte) :=
  let a := decideAdmit p n
  let recorded := decide (a.decision = .grantedOverride) && overrideRecords p n
  let p' := match recorded, n.setup with
    | true, some s => recordOverride p s
    | _, _ => p
  let code := match n.outcome with
    | .verdict _ => Code.ok
    | .code c => c
  (p', code, admitItems n.req.keyOn a p.line.state recorded)

/-! ## Closing -/

/-- The lane hands its completion to the port and is IDLE again (R69, R63). -/
def endLane (p : Part) (l : Lane) (r : Request) (code : Code) (items : List (Nat × List Byte)) (findings : List Finding) : Part :=
  handOver (complete (p.setLane l .reset) r code (some (resultArea items)) (some (findingsArea findings)))

/-- CLOSING: the notice, the answer, the completion (R69). -/
def closeLane (p : Part) (l : Lane) (n : Notice) (sum : Summary) : Part :=
  if n.req.kind = .admission then
    let (q, code, items) := admitNotice p n
    endLane q l n.req code (sum.items ++ items) sum.findings
  else
    let (q, code) := checkNotice p n
    endLane q l n.req code sum.items sum.findings

/-- The notice of a lane for an outcome. -/
def LaneRegs.notice (x : LaneRegs) (r : Request) (o : LaneOutcome) : Notice :=
  { req := r, setup := x.setup, resolved := x.setup.map LaneSetup.resolved, removed := x.removed, outcome := o }

/-- A request ended at tests 1 to 6 is answered without the Line Controller (R64, R69, R85). -/
def answerEarly (p : Part) (l : Lane) (r : Request) (c : Code) : Part :=
  endLane p l r c
    (Summary.blank.items ++ (if r.kind = .admission then admitItems r.keyOn (refuse c) .unready false else [])) []

/-- A request ended at tests 7 to 11 (R64), with the key of the entry that lookup found, if it found one (R65). -/
def endAtOpening (p : Part) (l : Lane) (r : Request) (c : Code) (found : Option Key) : Part :=
  closeLane p l { req := r, setup := none, resolved := resolvedFormat p r, removed := false, outcome := .code c } (.uncompared found)

/-- The captured image cannot be read (R67): the pin is released, the request ends TRANSFER_ERROR, its summary with the format of the
entry found (R65). -/
def captureFails (p : Part) (l : Lane) : Part :=
  let x := p.engine.lane l
  match x.state, x.req with
  | .capturing, some r => closeLane (releasePin p l) l (x.notice r (.code .transferError)) (.uncompared (x.setup.map LaneSetup.key))
  | _, _ => p

/-- What the summary of a comparison says of the two images (R58). DESIGN CHOICE (log 36): where the integrity test fails, the rule
overrun count is 0, as the other counts that R60 discards. -/
def imageSummary (x : LaneRegs) (s : LaneSetup) (baselineCrc : Nat) : Summary :=
  { Summary.blank with
    format := some s.key.format, generation := s.gen.number, baseLength := s.gen.length, capLength := x.capture.length
    captureCrc := x.captureCrc, baselineCrc := baselineCrc }

/-- The baseline fails its integrity test (R60): the report, taken before the notice (R81), STORE_FAULT, no verdict. -/
def integrityFails (p : Part) (l : Lane) (x : LaneRegs) (r : Request) (s : LaneSetup) (baselineCrc : Nat) : Part :=
  let p' := (reportAtOnce { uid := s.entry, number := s.gen.number } p).raise .storeFault
  closeLane p' l (x.notice r (.code .storeFault)) (imageSummary x s baselineCrc)

/-- The comparison is complete (R40, R55, R58): WATCH_HIT where a WATCH was seen, the notice, the completion. -/
def comparisonDone (p : Part) (l : Lane) (x : LaneRegs) (r : Request) (s : LaneSetup) (baseline : List Byte) : Part :=
  let (t, overruns) := compareImages x.rules x.order baseline x.capture
  let p' := if t.watch then p.raise .watchHit else p
  closeLane p' l (x.notice r (.verdict t))
    { imageSummary x s (crc32 baseline) with
      verdict := some t.verdict, compared := t.compared, tolerated := t.tolerated, total := t.total, overruns := overruns
      usage := t.usage, usageRule := t.usageRule, usageAt := t.usageAt, track := t.track, trackAt := t.trackAt, findings := t.kept }

/-! ## Opening and setup -/

/-- Tests 1 to 6 of R64. -/
def laneTests (p : Part) (r : Request) : Option Code :=
  if p.device ≠ .ready then some .notReady
  else if ¬ r.originValid then some .badOrigin
  else if r.kind = .check ∧ ¬ r.supervisor then some .notPermitted
  else if ¬ (r.station ≤ 15 ∧ r.block ≤ 63 ∧ (r.kind = .check → r.selector = 0xFF ∨ r.selector ≤ 31)) then some .badKey
  else if ¬ (2 ≤ r.length ∧ r.length ≤ 16384 ∧ r.length % 2 = 0) then some .badLength
  else if ¬ (r.address % 8 = 0) then some .badAddress
  else none

/-- Tests 7 to 11 of R64: the code of the first that fails, with the key of the entry if lookup found one (R65), or the entry found,
its generation and the format resolved. -/
def setupTests (p : Part) (r : Request) : (Code × Option Key) ⊕ (Entry × Generation × Nat) :=
  if ¬ (p.line.station r.station).defined then .inl (.noStation, none)
  else
    match resolvedFormat p r with
    | none => .inl (.noFormat, none)
    | some f =>
      match lookup p r.station r.block f with
      | none => .inl (.noBaseline, none)
      | some (e, g) =>
        if e.damaged then .inl (.baselineDamaged, some e.key)
        else if (ruleSetAt p.rules e.ruleSet).isFaulted then .inl (.rulesetFault, some e.key)
        else .inr (e, g, f)

/-- The lane sets up and enters CAPTURING (R66). -/
def setUpLane (p : Part) (l : Lane) (r : Request) (e : Entry) (g : Generation) (f : Nat) : Part :=
  (p.setLane l
    { LaneRegs.reset with
      state := .capturing, req := some r
      setup := some { entry := e.uid, key := e.key, gen := g, resolved := f, epoch := p.line.epoch }
      rules := (ruleSetAt p.rules e.ruleSet).rules, order := (p.line.station r.station).order, pin := some g.unit }).withStore
    fun s => s.pinUnit g.unit

/-- OPENING: the tests, then the setup (R64 to R66). -/
def openLane (p : Part) (l : Lane) (r : Request) : Part :=
  match laneTests p r with
  | some c => answerEarly p l r c
  | none =>
    match setupTests p r with
    | .inl (c, found) => endAtOpening p l r c found
    | .inr (e, g, f) => setUpLane p l r e g f

/-- A lane takes the head of the check queue, when it is of the kind wanted; the port is asked for a scan (R62, R63). -/
def takeCheck (p : Part) (kind : Kind) : Part :=
  match p.engine.queue, idleLane p.engine with
  | r :: rest, some l =>
    if p.on && decide (r.kind = kind) then openLane (askScan { p with engine := { p.engine with queue := rest } }) l r else p
  | _, _ => p

/-! ## Reading the two images -/

/-- Asks for the next page of the noted generation (R68). -/
def askPage (p : Part) (l : Lane) (g : Generation) (page : Nat) : Part :=
  p.withStore fun s => s.ask (.lane l) (.readPage g.unit (g.first + page))

/-- The last captured byte has arrived (R67): the image is in the buffer with its CRC, and the first page is asked for.
DESIGN CHOICE (log 55): its bytes are those that host memory holds at this moment. -/
def captureDone (p : Part) (l : Lane) (host : List Host.Cell) : Part :=
  let x := p.engine.lane l
  match x.state, x.req, x.setup with
  | .capturing, some r, some s =>
    if p.on then
      let q := p.hostStores host
      if bufferOpen q r && addressOk r.address r.length then
        let image := q.hostRead r.address r.length
        askPage (q.setLane l { x with state := .reading, capture := image, captureCrc := crc32 image }) l s.gen 0
      else captureFails q l
    else p
  | _, _, _ => p

/-- A page read of a lane has ended (R68, R60); a weak flag it sets is handed over at once (R124, R151). -/
def laneReadDone (l : Lane) (unit page errors : Nat) (p : Part) : Part :=
  let x := p.engine.lane l
  match x.state, x.req, x.setup with
  | .reading, some r, some s =>
    let p := handOver (p.withStore fun st => st.noteRead unit errors)
    if readable errors then
      let x := { x with baseline := x.baseline ++ p.store.pageData unit page, pagesRead := x.pagesRead + 1 }
      if x.pagesRead < s.gen.pages then askPage (p.setLane l x) l s.gen x.pagesRead
      else
        let baseline := x.baseline.take s.gen.length
        let q := releasePin (p.setLane l x) l
        if crc32 baseline = s.gen.crc then comparisonDone q l x r s baseline else integrityFails q l x r s (crc32 baseline)
    else integrityFails (releasePin p l) l x r s 0
  | _, _, _ => p

end Sys2Proof.Machine
end

