-- ==== Sys2Proof/Machine/Catalogue.lean ====
section
/-! DEFINITION. The catalogue requests: whose turn it is between requests (R8, R100, R116, R117, R130), the opening tests
(R9, R11, R75, R76), and how each request begins (R12 to R22, R32 to R36, R87, R102, R137). -/

namespace Sys2Proof.Machine

/-! ## Between requests -/

/-- What the Catalogue Unit does next when it is between requests. -/
inductive Turn
  | nothing
  | marks
  | erases
  | snapshot
  | request
  | reclaim
  deriving DecidableEq, Repr

/-- Some persistence mark is set (R100). -/
def marksSet (p : Part) : Bool := decide (p.line.formatMark ≠ .clear) || p.line.stations.any fun s => decide (s.mark ≠ .clear)

/-- A snapshot is called for between requests, and there is room for it (R130). -/
def snapshotDue (p : Part) : Bool :=
  decide ((emptyRecords p.store).length < Config.snapshotBelow) && p.cat.appended && decide (snapshotSize p ≤ freeRoom p)

/-- Whose turn it is (R8): marks, then erases, then a snapshot, then the head request, then a reclaim step; a request taken
during an erase goes before any further erase (R116). In UNFORMATTED only requests are begun (R136). -/
def cuTurn (p : Part) : Turn :=
  if p.cat.work ≠ .idle ∨ p.cat.await ≠ none then .nothing
  else
    match p.device with
    | .ready =>
      if marksSet p then .marks
      else if !(erasable p.store).isEmpty && !(p.cat.beginFirst && !p.cat.queue.isEmpty) then .erases
      else if snapshotDue p then .snapshot
      else if !p.cat.queue.isEmpty then .request
      else if p.store.runFlag then .reclaim
      else .nothing
    | .unformatted => if p.cat.queue.isEmpty then .nothing else .request
    | .mounting => .nothing
    | .formatting => .nothing

/-- Begins work of the unit's own when it is its turn. -/
def beginOwn (p : Part) (turn : Turn) (work : CuWork) (ops : List CuOp) : Part :=
  if p.on && decide (cuTurn p = turn) then cuWork (p.withCat fun c => { c with work := work, todo := ops }) else p

/-- The records of the set marks, the stations' before FORMAT (R100). DESIGN CHOICE (log 48): the stations go in ascending number. -/
def markOps (p : Part) : List CuOp :=
  ((List.range p.line.stations.length).filter fun n => decide ((p.line.station n).mark ≠ .clear)).map
      (fun n => .append (some 1) false (.stationMark n))
    ++ (if p.line.formatMark = .clear then [] else [.append (some 1) false .formatMark])

/-- The persistence marks are written (R100). -/
def writeMarks (p : Part) : Part := beginOwn p .marks .marks (markOps p)

/-- The pending units are erased between requests (R116). -/
def erasePendingUnits (p : Part) : Part := beginOwn p .erases .erases [.erasePending .between]

/-- A snapshot is written between requests (R130). -/
def writeSnapshot (p : Part) : Part := beginOwn p .snapshot .snapshot [.snapshot]

/-- A reclaim step is made (R118). -/
def reclaimOnce (p : Part) : Part := beginOwn p .reclaim .reclaim [.reclaimStep]

/-! ## The opening tests -/

/-- The origins a catalogue request permits (R76), the origin being 1, 2 or 3. -/
def Kind.permits (k : Kind) (r : Request) : Bool :=
  match k with
  | .list => true
  | .readBaseline => r.supervisor || r.engineer
  | _ => r.supervisor

/-- The catalogue requests that need the key switch (R76). -/
def Kind.catalogueNeedsKey : Kind → Bool
  | .readBaseline => false
  | .list => false
  | .clearPeaks => false
  | _ => true

/-- The format that freezing looks at (R11): the format parameter, or the key's format; none for kinds never frozen. -/
def frozenFormat (r : Request) : Option Nat :=
  match r.kind with
  | .commit => some r.format
  | .discard => some r.format
  | .revert => some r.key.format
  | .retire => some r.key.format
  | _ => none

/-- The catalogue is frozen against a request (R11). -/
def frozen (p : Part) (r : Request) : Bool :=
  decide (p.line.state = .settling) && (frozenFormat r).any fun f => decide (some f = p.line.target) || f == Config.common

/-- Tests 1 to 5 of R9: the code of the first that fails. DESIGN CHOICE (log 34): test 5 looks at the format alone, so a REVERT or RETIRE
in SETTLING whose station or block is out of range ends FROZEN where its format is frozen, and not BAD_KEY. -/
def openingTests (p : Part) (r : Request) : Option Code :=
  if ¬ (p.device = .ready ∨ (p.device = .unformatted ∧ (r.kind = .formatStore ∨ r.kind = .list))) then some .notReady
  else if ¬ r.originValid then some .badOrigin
  else if ¬ r.kind.permits r then some .notPermitted
  else if r.kind.catalogueNeedsKey ∧ ¬ r.keyOn then some .keyOff
  else if frozen p r then some .frozen
  else none

/-- The first code of a list of tests. -/
def firstCode : List (Bool × Code) → Option Code
  | [] => none
  | (passes, c) :: ts => if passes then firstCode ts else some c

/-- The address is a multiple of 8. -/
def Request.aligned (r : Request) : Bool := r.address % 8 == 0

/-- The key argument passes (R9). -/
def Request.keyOk (r : Request) : Bool := keyInRange r.key

/-- The format argument of COMMIT and DISCARD passes (R9). -/
def Request.formatOk (r : Request) : Bool := decide (r.format ≤ 31)

/-- Ends a request with a code and nothing to report. -/
def fail (c : Code) (p : Part) : Part := finishWith c [] p

/-- Goes on when a test result is none, else ends with its code. -/
def whenPassed (c : Option Code) (p : Part) (go : Part → Part) : Part :=
  match c with
  | some c => fail c p
  | none => go p

/-! ## The requests -/

/-- The arguments of ENROL (R12). -/
def enrolTests (p : Part) (r : Request) : Option Code :=
  let e := findKey p.cat.entries r.key
  firstCode
    [(r.keyOk, .badKey), ((p.line.station r.key.station).defined, .noStation),
     (decide (r.enrolRuleSet ≤ 63) && (ruleSetAt p.rules r.enrolRuleSet).isLoaded, .noRuleset),
     (decide (2 ≤ r.length ∧ r.length ≤ 16384 ∧ r.length % 2 = 0), .badLength), (r.aligned, .badAddress),
     (e.isSome || decide (p.cat.entries.length < Config.maxEntries), .catalogueFull),
     (e.all fun e => decide (e.counter < Config.counterSpent), .counterSpent)]

/-- ENROL and RULE_LOAD wait for the host memory they read (R13, R32). -/
def awaitHost (p : Part) : Part := p.withCat fun c => { c with await := some .hostRead }

/-- ENROL begins (R12, R13). -/
def beginEnrol (r : Request) (p : Part) : Part :=
  whenPassed (enrolTests p r) p fun p => awaitHost (p.withCat fun c => { c with order := (p.line.station r.key.station).order })

/-- COMMIT begins (R15). -/
def beginCommit (r : Request) (p : Part) : Part :=
  whenPassed (firstCode [(r.formatOk, .badKey)]) p fun p =>
    let n := (stagedOf p r.format).length
    if n = 0 then finishWith .ok [(64, leBytes 4 0)] p else push [.append (some (n + 2)) false (.commit r.format)] p

/-- DISCARD begins (R16): one record an entry, the room test made for all together (R127). -/
def beginDiscard (r : Request) (p : Part) : Part :=
  whenPassed (firstCode [(r.formatOk, .badKey)]) p fun p =>
    let keys := (stagedOf p r.format).map Entry.key
    let ops : List CuOp := keys.mapIdx fun i k => .append (if i = 0 then some keys.length else none) false (.discard k)
    push (ops ++ [.discardEnd]) p

/-- The arguments of REVERT (R17). -/
def revertTests (p : Part) (r : Request) : Option Code :=
  let e := findKey p.cat.entries r.key
  firstCode [(r.keyOk, .badKey), (e.isSome, .noBaseline), (e.all fun e => e.previous.isSome, .wrongState)]

/-- REVERT begins (R17). -/
def beginRevert (r : Request) (p : Part) : Part :=
  whenPassed (revertTests p r) p (push [.append (some 1) false (.revert r.key)])

/-- RETIRE begins (R18). -/
def beginRetire (r : Request) (p : Part) : Part :=
  whenPassed (firstCode [(r.keyOk, .badKey), ((findKey p.cat.entries r.key).isSome, .noBaseline)]) p
    (push [.append (some 1) false (.retire r.key)])

/-- The arguments of READ_BASELINE before the capacity (R20, R164). -/
def readBaselineTests (p : Part) (r : Request) : Option Code :=
  firstCode
    [(r.keyOk, .badKey), (decide (1 ≤ r.generation ∧ r.generation ≤ 3), .badParameter), (r.aligned, .badAddress),
     ((findKey p.cat.entries r.key).isSome, .noBaseline), ((chosenGeneration p r).isSome, .noBaseline)]

/-- READ_BASELINE begins: the unit is pinned and the first page read (R20). -/
def beginReadBaseline (r : Request) (p : Part) : Part :=
  whenPassed (readBaselineTests p r) p fun p =>
    match chosenGeneration p r with
    | none => p
    | some (_, g) =>
      if r.capacity < g.length then finishWith .bufferShort [(68, leBytes 2 g.length)] p
      else push [.readBack 0] ((p.withStore fun s => s.pinUnit g.unit).withCat fun c => { c with pin := some g.unit })

/-- A filter of LIST lies in its range (R21). -/
def filterOk (v most : Nat) : Bool := decide (v ≤ most) || v == 0xFF

/-- A value passes a filter. -/
def passesFilter (filter v : Nat) : Bool := filter == 0xFF || filter == v

/-- The arguments of LIST (R21, R164). -/
def listTests (r : Request) : Option Code :=
  firstCode
    [(filterOk r.listStation 15 && filterOk r.listBlock 63 && filterOk r.listFormat 31, .badKey),
     (decide (r.listSkip ≤ 1023 ∧ r.listCapacity ≤ 1024), .badParameter), (r.aligned, .badAddress)]

/-- The entries that match, in ascending order (R21). -/
def listMatches (p : Part) (r : Request) : List Entry :=
  sortByKey (p.cat.entries.filter fun e =>
    passesFilter r.listStation e.key.station && passesFilter r.listBlock e.key.block && passesFilter r.listFormat e.key.format)

/-- The matches of which LIST writes records: past the skip count, up to the capacity; none in UNFORMATTED (R21). -/
def listFound (p : Part) (r : Request) : List Entry := if p.device = .unformatted then [] else listMatches p r

/-- Writes listing records into consecutive places from place i on: how many places are written then, and whether every write went
through (R21). -/
def writeListing (p : Part) (r : Request) : Nat → List Entry → Part × Nat × Bool
  | i, [] => (p, i, true)
  | i, e :: es =>
    let address := r.address + 64 * i
    if bufferOpen p r && addressOk address 64 then writeListing (p.hostWrite address (listingRecord e)) r (i + 1) es
    else (p, i, false)

/-- A LIST one of whose writes has failed ends TRANSFER_ERROR with the records written before it (R21). -/
def listFails (n : Nat) (p : Part) : Part := finishWith .transferError [(64, leBytes 4 n)] p

/-- LIST goes on with place i: it writes the next records, each showing its entry at this moment, and ends after the last, or waits
(R21; log 24). -/
def goOnListing (upTo : Option Nat) (i : Nat) (r : Request) (p : Part) : Part :=
  let found := listFound p r
  let out := (found.drop r.listSkip).take r.listCapacity
  let (q, n, went) := writeListing p r i ((out.drop i).take (upTo.getD out.length))
  if !went then listFails n q
  else if out.length ≤ n then finishWith .ok [(64, leBytes 4 n), (68, leBytes 4 found.length)] q
  else q.withCat fun c => { c with await := some (.listing n) }

/-- LIST begins: its argument tests, then its first records (R21). -/
def beginList (upTo : Option Nat) (r : Request) (p : Part) : Part := whenPassed (listTests r) p (goOnListing upTo 0 r)

/-- The arguments of CLEAR_PEAKS: with the choice ALL none; otherwise the key, then the choice, then the entry (R22, R164). -/
def clearPeaksTests (p : Part) (r : Request) : Option Code :=
  if r.peaksChoice = 1 then none
  else
    firstCode
      [(keyInRange r.peaksKey, .badKey), (r.peaksChoice == 0, .badParameter), ((findKey p.cat.entries r.peaksKey).isSome, .noBaseline)]

/-- CLEAR_PEAKS carried out (R22). -/
def beginClearPeaks (r : Request) (p : Part) : Part :=
  whenPassed (clearPeaksTests p r) p fun p =>
    let mine (e : Entry) : Bool := r.peaksChoice == 1 || decide (e.key = r.peaksKey)
    finishWith .ok [(64, leBytes 2 (p.cat.entries.countP mine))]
      (p.withEntries fun es => es.map fun e => if mine e then e.emptyPeaks else e)

/-- RULE_LOAD with a count above 0 begins (R32, R34). -/
def beginRuleLoad (r : Request) (p : Part) : Part :=
  whenPassed (firstCode [(decide (r.loadSet ≤ 63), .noRuleset), (decide (r.loadCount ≤ 128), .badLength), (r.aligned, .badAddress)]) p fun p =>
    let T := rulesHeldBeside p.rules r.loadSet
    if T + r.loadCount ≤ Config.maxRules then awaitHost p else finishWith .rulesFull [(66, leBytes 2 T)] p

/-- The arguments of a deletion (R32, R36). -/
def ruleDeleteTests (p : Part) (r : Request) : Option Code :=
  firstCode
    [(decide (r.loadSet ≤ 63), .noRuleset), ((ruleSetAt p.rules r.loadSet).image.isSome, .noRuleset),
     (p.cat.entries.all fun e => decide (e.ruleSet ≠ r.loadSet), .inUse)]

/-- RULE_LOAD with a count of 0 begins (R36). -/
def beginRuleDelete (r : Request) (p : Part) : Part :=
  whenPassed (ruleDeleteTests p r) p (push [.append (some 1) false (.ruleDelete r.loadSet)])

/-- A name character is 20h to 7Eh (R86). -/
def nameOk (name : List Byte) : Bool := name.all fun b => decide (0x20 ≤ b.toNat ∧ b.toNat ≤ 0x7E)

/-- The arguments of STATION_DEFINE with an action other than UNDEFINE (R87). -/
def defineTests (r : Request) : Option Code :=
  firstCode
    [(decide (r.defineStation ≤ 15), .badKey), (r.defineAction == 1, .badParameter),
     (decide (r.defineOrder = 1 ∨ r.defineOrder = 2) && nameOk r.defineName, .badParameter)]

/-- STATION_DEFINE, DEFINE, begins (R87). -/
def beginDefine (r : Request) (p : Part) : Part := whenPassed (defineTests r) p (push [.append (some 1) false .stationDefine])

/-- The arguments of STATION_DEFINE with the action UNDEFINE (R87). -/
def undefineTests (p : Part) (r : Request) : Option Code :=
  firstCode
    [(decide (r.defineStation ≤ 15), .badKey), ((p.line.station r.defineStation).defined, .noStation),
     (p.cat.entries.all fun e => decide (e.key.station ≠ r.defineStation), .inUse)]

/-- STATION_DEFINE, UNDEFINE, begins (R87). -/
def beginUndefine (r : Request) (p : Part) : Part := whenPassed (undefineTests p r) p (push [.append (some 1) false .stationUndefine])

/-- PARAM_SET begins (R102). -/
def beginParamSet (r : Request) (p : Part) : Part :=
  whenPassed (firstCode [(decide (r.operatorAdmit ≤ 1), .badParameter), (decide (r.overrideParam ≤ 1), .badParameter)]) p
    (push [.append (some 1) false .paramSet])

/-! ## FORMAT_STORE -/

/-- The Check Engine is busy (R62). -/
def Engine.busy (e : Engine) : Bool := !e.queue.isEmpty || decide (e.laneA.state ≠ .idle) || decide (e.laneB.state ≠ .idle)

/-- FORMAT_STORE enters FORMATTING in one act (R137, R92, R103). -/
def enterFormatting (p : Part) : Part :=
  let before := p.line
  let p' := { p with
    device := .formatting, line := { p.line with state := .unready, active := none, target := none, deadline := none } }
  let p' := if before.state = .unready ∧ before.active = none ∧ before.target = none then p' else p'.raise .lineState
  recompute (p'.withStore Store.stopRun)

/-- The valid SNAP_BEGIN numbers a unit holds. -/
def snapBegins (s : Store) (u : Nat) : List Nat :=
  (List.range (s.unit u).slots).filterMap fun m =>
    match slotDecode (s.slotData u m) with
    | some (seq, .snapBegin _) => some seq
    | _ => none

/-- The greatest number of a list. -/
def greatest (ns : List Nat) : Nat := ns.foldl max 0

/-- Inserts a unit by its greatest SNAP_BEGIN number. -/
def insertByNumber (x : Nat × Nat) : List (Nat × Nat) → List (Nat × Nat)
  | [] => [x]
  | y :: ys => if x.2 ≤ y.2 then x :: y :: ys else y :: insertByNumber x ys

/-- The units of step 2 of R138: those that hold a valid SNAP_BEGIN, ascending by its number, the newest last. -/
def snapshotUnits (s : Store) : List Nat :=
  let found := (List.range Config.maxRecordUnits).filterMap fun u =>
    if decide ((s.unit u).mode = .record) && !(s.unit u).bad && !(snapBegins s u).isEmpty then some (u, greatest (snapBegins s u)) else none
  (found.foldr insertByNumber []).map fun x => x.1

/-- The units of step 3 of R138: every other unit not in the fuse list that holds programmed pages. -/
def programmedUnits (s : Store) : List Nat :=
  allUnits.filter fun u => !(s.unit u).bad && decide (0 < (s.unit u).pages) && decide (u ∉ snapshotUnits s)

/-- Step 1 of R138: the fuse list becomes the bad-unit list. -/
def takeFuses (s : Store) : Store := { s with units := s.units.mapIdx fun u x => { x with bad := decide (u ∈ s.fuses) } }

/-- FORMAT_STORE begins (R137, R138). -/
def beginFormat (_r : Request) (p : Part) : Part :=
  if p.engine.busy then fail .busy p
  else
    let p' := (enterFormatting p).withStore takeFuses
    push [.erase (snapshotUnits p'.store ++ programmedUnits p'.store) .formatting, .formatWrite]
      (p'.withCat fun c => { c with badWaiting := [], snapDone := false })

/-! ## Beginning the head request -/

/-- The head request leaves the queue, the port is asked for a scan (R8), and the request's counts start at 0. DESIGN CHOICE (log 59): of
two requests that wait at the end of an erase between requests only the first goes before any further erase (R116). -/
def takeHead (p : Part) (r : Request) (rest : List Request) : Part :=
  askScan (p.withCat fun c => { c with queue := rest, work := .request, req := some r, todo := [], beginFirst := false, dropped := 0, ceased := 0 })

/-- The Catalogue Unit begins the head request, when it is its turn and the request is of the kind wanted: tests 1 to 5 of R9,
then the request's own part. -/
def beginHead (p : Part) (wanted : Request → Bool) (go : Request → Part → Part) : Part :=
  match p.cat.queue with
  | [] => p
  | r :: rest =>
    if p.on && decide (cuTurn p = .request) && wanted r then
      let p' := takeHead p r rest
      cuWork (whenPassed (openingTests p' r) p' (go r))
    else p

/-- LIST begins when it is its turn; one in hand goes on where it stands (R21). -/
def carryOnList (upTo : Option Nat) (p : Part) : Part :=
  match p.cat.await, p.cat.req with
  | some (.listing i), some r => if p.on then cuResume p (goOnListing upTo i r) else p
  | _, _ => beginHead p (fun r => decide (r.kind = .list)) (beginList upTo)

/-- The head request is of a kind. -/
def isKind (k : Kind) (r : Request) : Bool := decide (r.kind = k)

/-! ## The read of an image or of a rule array -/

/-- ENROL screens its image and goes on to place it (R13, R14). -/
def enrolRead (r : Request) (image : List Byte) (p : Part) : Part :=
  let (pieces, overruns) := claimWalk (ruleSetAt p.rules r.enrolRuleSet).rules image.length
  let p' := p.withCat fun c => { c with buffer := image, overruns := overruns }
  match screenImage p.cat.order image pieces with
  | some (offset, index) =>
    finishWith .baseMalformed [(80, leBytes 2 overruns), (82, leBytes 2 offset), (84, leBytes 1 index)] p'
  | none => push [.place false false] p'

/-- RULE_LOAD validates its rules and goes on to place the set (R33, R35). -/
def rulesRead (r : Request) (array : List Byte) (p : Part) : Part :=
  let p' := p.withCat fun c => { c with buffer := array }
  match firstBadRule (ruleRecords array r.loadCount) 0 with
  | some (index, reason) => finishWith .badRule [(75, leBytes 1 index), (76, leBytes 1 reason)] p'
  | none => push [.place false false] p'

/-- The bytes an ENROL or a RULE_LOAD reads from host memory. -/
def hostLength (r : Request) : Nat := if r.kind = .ruleLoad then 24 * r.loadCount else r.length

/-- The read of the image or the rule array ends (R13, R32, R152). DESIGN CHOICE (log 55): its bytes are those that host memory holds at
this moment. -/
def hostReadDone (host : List Host.Cell) (p : Part) : Part :=
  match p.cat.await, p.cat.req with
  | some .hostRead, some r =>
    if p.on then
      cuResume p fun p =>
        let p := p.hostStores host
        if bufferOpen p r && addressOk r.address (hostLength r) then
          let bytes := p.hostRead r.address (hostLength r)
          if r.kind = .ruleLoad then rulesRead r bytes p else enrolRead r bytes p
        else fail .transferError p
    else p
  | _, _ => p

/-- A transfer on the buffer of the request in hand fails (R13, R20, R21, R32, R152): a page read under way for READ_BASELINE is
awaited, and its data not used. DESIGN CHOICE (log 61): a write of a listing record or of a page that fails has put none of its bytes into
the host buffer. -/
def catalogueBufferFails (p : Part) : Part :=
  match p.cat.await with
  | some .hostRead => cuResume p (fail .transferError)
  | some (.listing n) => cuResume p (listFails n)
  | some (.readBack _) => if p.cat.todo = [] then onlyDo [.readBackEnd .transferError] p else p
  | _ => p

end Sys2Proof.Machine
end

