-- ==== Sys2Proof/Machine/Mount.lean ====
section
/-! DEFINITION. Mount (R132 to R136): what the record area holds, the choice of a snapshot, replay, the rule sets (R38),
the finishing steps, and the store's answers that carry mount through them. -/

namespace Sys2Proof.Machine

/-! ## What the reads find -/

/-- A valid slot: its unit, its sequence number, its record (R125). -/
structure ValidSlot where
  unit   : Nat
  seq    : Nat
  record : JournalRecord
  deriving DecidableEq, Repr

/-- The bits in error that a page read of mount meets; none where the page is erased (R107). -/
def mountErrors (env : MountEnv) (s : Store) (unit page : Nat) : Nat :=
  s.pageErrors unit page (((env.reads.find? fun r => decide (r.unit = unit ∧ r.page = page)).map MountRead.errors).getD 0)

/-- The pages of a unit that mount reads: all programmed ones below unit 64, page 0 above (R132). -/
def pagesRead (s : Store) (u : Nat) : List Nat :=
  (List.range (if u < Config.maxRecordUnits then (s.unit u).pages else min 1 (s.unit u).pages))

/-- The weak flags that mount's reads of records and of first pages set (R107, R132). -/
def noteMountReads (env : MountEnv) (s : Store) : Store :=
  env.reads.foldl (fun s r => if r.page ∈ pagesRead s r.unit then s.noteRead r.unit (s.pageErrors r.unit r.page r.errors) else s) s

/-- The valid slots of a unit (R125, R132). -/
def validSlots (env : MountEnv) (s : Store) (u : Nat) : List ValidSlot :=
  if (s.unit u).mode = .record then
    (List.range (s.unit u).slots).filterMap fun m =>
      if readable (mountErrors env s u (m / 4)) then
        (slotDecode (s.slotData u m)).map fun x => { unit := u, seq := x.1, record := x.2 }
      else none
  else []

/-- Every valid slot of units 0 to 63. -/
def allValid (env : MountEnv) (s : Store) : List ValidSlot :=
  (List.range Config.maxRecordUnits).flatMap (validSlots env s)

/-- The record that carries a number; two slots that carry it carry the same one (R132). -/
def recordAt (vs : List ValidSlot) (n : Nat) : Option JournalRecord :=
  (vs.find? fun v => decide (v.seq = n)).map ValidSlot.record

/-- SNAP_BEGIN or SNAP_END. -/
def JournalRecord.frames : JournalRecord → Bool
  | .snapBegin _ => true
  | .snapEnd _ => true
  | _ => false

/-- A snapshot that begins at s is complete (R133): some SNAP_END at s + c + 1 with count c, all between carried, none a frame. -/
def completeAt (vs : List ValidSlot) (s : Nat) : Bool :=
  vs.any fun v =>
    match v.record with
    | .snapEnd c =>
      decide (v.seq = s + c + 1) && (List.range c).all fun i => (recordAt vs (s + 1 + i)).any fun r => !r.frames
    | _ => false

/-- The complete snapshot of the highest SNAP_BEGIN: its number and R (R133). -/
def chooseSnapshot (vs : List ValidSlot) : Option (Nat × Nat) :=
  vs.foldl (fun best v =>
    match v.record with
    | .snapBegin r =>
      if completeAt vs v.seq && best.all fun b => decide (b.1 < v.seq) then some (v.seq, r) else best
    | _ => best) none

/-- The highest number found; 0 when there is none (R132). -/
def highest (vs : List ValidSlot) : Nat := vs.foldl (fun h v => max h v.seq) 0

/-! ## Replay -/

/-- The items being rebuilt (R126), and the commit group held aside (R129): its format, its count, its records. -/
structure Replay where
  entries  : List EntryImage
  sets     : List (Option SetImage)
  stations : List StationImage
  params   : Params
  format   : Option Nat
  bad      : List Nat
  group    : Option (Nat × Nat × List EntryImage)
  deriving DecidableEq, Repr

/-- The items before replay (R132). -/
def Replay.start : Replay :=
  { entries := [], sets := List.replicate 64 none
    stations := List.replicate 16 { defined := false, order := .big, name := List.replicate 8 0#8, heldOut := false }
    params := .defaults, format := none, bad := [], group := none }

/-- An ENTRY record creates or replaces the entry with its key. -/
def Replay.putEntry (x : Replay) (e : EntryImage) : Replay :=
  { x with
    entries := if x.entries.any fun y => decide (y.key = e.key) then x.entries.map fun y => if y.key = e.key then e else y
      else x.entries ++ [e] }

/-- The effect of a record with no group open (R126, R129). -/
def Replay.apply (x : Replay) (r : JournalRecord) : Replay :=
  match r with
  | .entry _ e => x.putEntry e
  | .entryGone k => { x with entries := x.entries.filter fun y => decide (y.key ≠ k) }
  | .ruleset _ n img => { x with sets := modifyNth (fun _ => some img) n x.sets }
  | .rulesetGone n => { x with sets := modifyNth (fun _ => none) n x.sets }
  | .station n s => { x with stations := modifyNth (fun _ => s) n x.stations }
  | .param ps => { x with params := ps }
  | .format f => { x with format := some f }
  | .bad us => { x with bad := x.bad ++ us }
  | .commitBegin f n => { x with group := some (f, n, []) }
  | .commitEnd => x
  | .snapBegin _ => x
  | .snapEnd _ => x

/-- One record of replay, with the commit group it belongs to, if any (R129). -/
def Replay.meet (x : Replay) (r : JournalRecord) : Replay :=
  match x.group with
  | none => x.apply r
  | some (f, n, held) =>
    match r with
    | .entry _ e =>
      if held.length < n ∧ e.key.format = f then { x with group := some (f, n, held ++ [e]) } else { x with group := none }.apply r
    | .commitEnd =>
      if held.length = n then held.foldl Replay.putEntry { x with group := none } else { x with group := none }
    | _ => { x with group := none }.apply r

/-- Replay from a number up to h: the items rebuilt, and whether a gap was met (R134). -/
def replayFrom (vs : List ValidSlot) (h : Nat) : Nat → Nat → Replay → Replay × Bool
  | 0, _, x => (x, false)
  | fuel + 1, n, x =>
    if n ≤ h then
      match recordAt vs n with
      | some r => replayFrom vs h fuel (n + 1) (x.meet r)
      | none => (x, true)
    else (x, false)

/-! ## The rebuilt part -/

/-- An entry rebuilt by mount: the volatile fields take the mount values of R4. -/
def mountedEntry (uid : Nat) (e : EntryImage) : Entry :=
  { uid := uid, key := e.key, counter := e.counter, ruleSet := e.ruleSet, staged := e.staged, current := e.current, previous := e.previous
    damaged := false, verdict := .unchecked, second := 0, epoch := 0, bandPeak := .zero, trackPeak := .zero }

/-- A station's place from its last record (R86). -/
def mountedStation (s : StationImage) : Station :=
  { Station.blank with defined := s.defined, order := s.order, name := s.name, heldOut := s.heldOut }

/-- The pages of a run. -/
def PageRun.all (r : PageRun) : List Nat := (List.range r.pages).map fun i => r.first + i

/-- The bytes of an image as the flash holds them. -/
def imageBytes (s : Store) (x : ImageSpan) : List Byte := (x.run.all.flatMap fun page => s.pageData x.run.unit page).take x.length

/-- Whether every page of an image reads error-free or corrected, and the CRC agrees (R38). -/
def imageWhole (env : MountEnv) (s : Store) (x : ImageSpan) : Bool :=
  (x.run.all.all fun page => readable (mountErrors env s x.run.unit page)) && crc32 (imageBytes s x) == x.crc

/-- A rule set from its recorded image (R38). -/
def mountedSet (env : MountEnv) (s : Store) : Option SetImage → RuleSet
  | none => .absent
  | some img => if imageWhole env s img.span then .loaded img (rulesOf (imageBytes s img.span) img.count) else .faulted img

/-- The weak flags that the reads of an image set (R38, R107). -/
def noteImageReads (env : MountEnv) (s : Store) (x : ImageSpan) : Store :=
  x.run.all.foldl (fun s page => s.noteRead x.run.unit (mountErrors env s x.run.unit page)) s

/-- Enters the units of the BAD records in the list. -/
def markListed (bad : List Nat) (s : Store) : Store := { s with units := s.units.mapIdx fun u x => { x with bad := decide (u ∈ bad) } }

/-- Step 2 of R135: the live pages of every unit from the references rebuilt. -/
def countLive (p : Part) : Part :=
  p.withStore fun s => (images p).foldl (fun s x => s.addLive x.2.run.unit x.2.run.pages) s

/-- The items rebuilt by replay, in their blocks; rule sets are read (R135, steps 1 and 2). -/
def rebuild (env : MountEnv) (R : Nat) (x : Replay) (p : Part) : Part :=
  let s := markListed x.bad { p.store with recordSize := some R }
  let s := (x.sets.filterMap id).foldl (fun s img => noteImageReads env s img.span) s
  let rules := x.sets.map (mountedSet env s)
  let p' := { p with
    store := s, rules := rules
    cat := { p.cat with entries := x.entries.mapIdx mountedEntry, nextUid := x.entries.length }
    line := { p.line with params := x.params, active := x.format, stations := x.stations.map mountedStation } }
  countLive (if rules.any RuleSet.isFaulted then p'.raise .storeFault else p')

/-- A good record unit with programmed pages whose valid slots all carry numbers below the chosen SNAP_BEGIN, h not among them,
or which holds no valid slot (R135, step 3). -/
def isOldRecordUnit (vs : List ValidSlot) (begin h : Nat) (s : Store) (u : Nat) : Bool :=
  let mine := vs.filter fun v => decide (v.unit = u)
  !(s.unit u).bad && decide (0 < (s.unit u).pages) && mine.all (fun v => decide (v.seq < begin)) && mine.all fun v => decide (v.seq ≠ h)

/-- The record units of step 3 of R135: all their valid slots are older than the snapshot, or they hold none. DESIGN CHOICE (log 42):
they are erased in ascending order. -/
def oldRecordUnits (vs : List ValidSlot) (begin h R : Nat) (s : Store) : List Nat :=
  (List.range R).filter (isOldRecordUnit vs begin h s)

/-- The unit that carries h: a good one where a failed slot repeats it (R128, R135). DESIGN CHOICE (log 43): where two good units carry
it, the one of lower number. -/
def unitOf (vs : List ValidSlot) (s : Store) (h : Nat) : Option Nat :=
  let mine := vs.filter fun v => decide (v.seq = h)
  ((mine.find? fun v => !(s.unit v.unit).bad).or mine.head?).map ValidSlot.unit

/-- A record has been appended since the chosen snapshot was completed: h is not its SNAP_END (R130, R133). -/
def appendedSince (vs : List ValidSlot) (begin h : Nat) : Bool :=
  !vs.any fun v =>
    match v.record with
    | .snapEnd c => decide (v.seq = begin + c + 1 ∧ v.seq = h)
    | _ => false

/-- The steps that follow replay (R134, R135). -/
def finishSteps (old : List Nat) (gap : Bool) : List CuOp :=
  [.erase old .mountOld, .flushBad] ++ (if gap then [.snapshot, .flushBad] else []) ++ [.mountSweep, .mountReady]

/-- Mount up to the first operation of its finishing steps, or to UNFORMATTED (R132 to R136). -/
def mountBegin (env : MountEnv) (p : Part) : Part :=
  let p := { p with device := .mounting, gap := false, store := noteMountReads env p.store }
  let found := allValid env p.store
  let h := highest found
  let p := p.withCat fun c => { c with nextSeq := h + 1 }
  match chooseSnapshot found with
  | none => { p with device := .unformatted }
  | some (begin, R) =>
    let vs := found.filter fun v => decide (v.unit < R)
    let (x, gap) := replayFrom vs h (vs.length + 1) begin .start
    let p := rebuild env R x p
    let p := if gap then { p with gap := true }.raise .storeFault else p
    p.withCat fun c =>
      { c with work := .mount, writeUnit := unitOf vs p.store h, appended := appendedSince vs begin h, todo := finishSteps (oldRecordUnits vs begin h R p.store) gap }

/-! ## The store's answers -/

/-- What is left of the store's answers: the ends of erases and slot programs in their order, the bank that ends first where both are
at work, and how many operations may still end before RESET# arrives again. -/
structure Answers where
  erases : List EraseOutcome
  slots  : List ProgOutcome
  order  : List Bank
  cut    : Option Nat
  deriving DecidableEq, Repr

/-- The bank whose operation ends next, and the operation: where both banks have one in progress, as the store answers. -/
def nextToEnd (a : Answers) (s : Store) : Option (Bank × BankOp) :=
  match s.bank0.head?, s.bank1.head? with
  | some x, some y => some (match a.order.headD .even with
    | .even => (.even, x.op)
    | .odd => (.odd, y.op))
  | some x, none => some (.even, x.op)
  | none, some y => some (.odd, y.op)
  | none, none => none

/-- An operation in progress ends as the store answers it, and mount goes on. -/
def answerOne (a : Answers) (b : Bank) (op : BankOp) (p : Part) : Part × Answers :=
  let a := { a with cut := a.cut.map fun n => n - 1, order := if p.store.bank0 = [] ∨ p.store.bank1 = [] then a.order else a.order.tail }
  let p := finishHead p b
  match op with
  | .eraseUnit u => (cuEraseDone u (a.erases.headD .done) p, { a with erases := a.erases.tail })
  | .programSlot u m data => (cuSlotDone u m data (a.slots.headD .done) p, { a with slots := a.slots.tail })
  | .programPage _ _ _ => (p, a)
  | .readPage _ _ => (p, a)

/-- Carries mount to its end, or to the moment at which RESET# arrives again; the Bool says that it has. -/
def mountDrive : Nat → Answers → Part → Part × Bool
  | 0, _, p => (p, false)
  | n + 1, a, p =>
    match nextToEnd a p.store with
    | none => (p, false)
    | some (b, op) =>
      if a.cut = some 0 then (p, true)
      else
        let (q, c) := answerOne a b op p
        mountDrive n c q

/-- A bound on the operations of one mount: erases of every unit and a snapshot with every repeat. -/
def mountBound : Nat := 8192

/-- Mount: the part after it, and whether RESET# has cut it short (R132). -/
def mount (env : MountEnv) (p : Part) : Part × Bool :=
  let q := mountBegin env p
  let (r, cut) := mountDrive mountBound { erases := env.erases, slots := env.slots, order := env.order, cut := env.cut }
    (if q.cat.work = .mount then cuRun Config.workBound q else q)
  (if cut then r else askScan (cuSettle r), cut)

end Sys2Proof.Machine
end

