-- ==== Sys2Proof/Machine/Reset.lean ====
section
/-! DEFINITION. RESET#, power, the key switch and the events of the link (R154, R160, R161), and the ends of the banks'
operations as they reach their clients (R106 to R109). -/

namespace Sys2Proof.Machine

/-! ## RESET# and the supplies -/

/-- RESET# goes low or power comes on (R161): a pulse is taken from 10 µs on, filtered below 2 µs, and in between as the part
happens to do. -/
def assertReset (low : ResetLow) (torn : TornOps) (p : Part) : Part :=
  match low with
  | .powerOn =>
    if p.pins.powered then p
    else
      let q := resetPart torn p
      { q with pins := { q.pins with powered := true } }
  | .pulse ns taken =>
    if p.on && (decide (Config.resetTaken ≤ ns) || (decide (Config.resetFiltered ≤ ns) && taken)) then resetPart torn p else p

/-- The supplies fall away (R161): all but the flash and the fuses is lost. DESIGN CHOICE (log 6): the endpoint's bus mastering stays as it
was, here and at the power-on after it. -/
def losePower (torn : TornOps) (p : Part) : Part :=
  if p.pins.powered then
    let q := resetPart torn p
    { q with pins := { q.pins with powered := false } }
  else p

/-- RESET# is released (R161): seconds start at 0, the stability timer starts, mount runs; a RESET# that arrives during mount
leaves RESET# low again. -/
def releaseReset (env : MountEnv) (p : Part) : Part :=
  if p.pins.powered && p.pins.resetLow then
    let q := { p with
      pins := { p.pins with resetLow := false }, line := { p.line with seconds := 0 }, key := { p.key with running := true } }
    let (r, cut) := mount env q
    if cut then resetPart env.torn r else r
  else p

/-! ## The link and the transfers -/

/-- A transfer on the exchange area fails while the port makes such transfers (R154). -/
def exchangeFails (p : Part) : Part := if p.on && p.port.live then exchangeFault p else p

/-- A transfer on a request's own buffer fails (R152). -/
def bufferFails (u : BufferUser) (p : Part) : Part :=
  if p.on then
    match u with
    | .lane l => captureFails p l
    | .catalogue => catalogueBufferFails p
  else p

/-- A read completion has not arrived within 50 ms: the transfer it belongs to has failed (R152, R154). -/
def readTimesOut (t : TimeoutAt) (p : Part) : Part :=
  match t with
  | .exchange => exchangeFails p
  | .buffer u => bufferFails u p

/-- The endpoint's bus mastering goes on or off (R154): every transfer after it goes through or fails. -/
def setMastering (on : Bool) (p : Part) : Part := { p with pins := { p.pins with mastering := on } }

/-! ## The key switch and the timers -/

/-- The KEYSW input changes its level, which starts the stability timer afresh; while RESET# is low the timer does not run (R160). -/
def changeKeysw (level : Bool) (p : Part) : Part :=
  if p.pins.keysw = level then p
  else
    let q := { p with pins := { p.pins with keysw := level } }
    if p.on then { q with key := { q.key with running := true } } else q

/-- The stability timer runs out (R160). -/
def debounceExpires (p : Part) : Part :=
  if p.on && p.key.running then
    let q := { p with key := { level := p.pins.keysw, running := false } }
    if p.pins.keysw = p.key.level then q else handOver (q.raise .key)
  else p

/-- The scan timer expires: it starts afresh and asks for a scan (R144). -/
def scanTimerExpires (p : Part) : Part :=
  if p.on && p.port.live && p.port.timer.isSome then
    askScan { p with port := { p.port with timer := timerFor p.port.interval } }
  else p

/-- The window deadline is reached (R98). -/
def windowExpires (p : Part) : Part :=
  match p.line.state, p.line.deadline with
  | .changeover, some d => if p.on && decide (d ≤ p.line.seconds) then expireWindow p else p
  | .settling, some d => if p.on && decide (d ≤ p.line.seconds) then expireWindow p else p
  | _, _ => p

/-- The verdict of an entry reaches its due second (R101). -/
def verdictExpires (k : Key) (p : Part) : Part :=
  if p.on && p.cat.entries.any fun e => decide (e.key = k) && fallenDue p.line e then expireVerdict p k else p

/-- One second passes, once RESET# is released (R94). -/
def secondPasses (p : Part) : Part := if p.on then tickSecond p else p

/-! ## The ends of bank operations -/

/-- A bank ends a page read (R107): the outcome goes to the client that asked for it; a page not programmed since the unit's last erase
reads error-free whatever the operand says. -/
def endPageRead (b : Bank) (errors : Nat) (p : Part) : Part :=
  match (p.store.queue b).head? with
  | some { client := .lane l, op := .readPage u page } => if p.on then laneReadDone l u page (p.store.pageErrors u page errors) (finishHead p b) else p
  | some { client := .catalogue, op := .readPage u page } => if p.on then cuReadDone u page (p.store.pageErrors u page errors) (finishHead p b) else p
  | _ => p

/-- A bank ends a page program (R108). -/
def endPageProgram (b : Bank) (o : ProgOutcome) (p : Part) : Part :=
  match (p.store.queue b).head? with
  | some { client := .catalogue, op := .programPage u page data } => if p.on then cuProgramDone u page data o (finishHead p b) else p
  | _ => p

/-- A bank ends a slot program (R108). -/
def endSlotProgram (b : Bank) (o : ProgOutcome) (p : Part) : Part :=
  match (p.store.queue b).head? with
  | some { client := .catalogue, op := .programSlot u slot data } => if p.on then cuSlotDone u slot data o (finishHead p b) else p
  | _ => p

/-- A bank ends a unit erase (R109). -/
def endErase (b : Bank) (o : EraseOutcome) (p : Part) : Part :=
  match (p.store.queue b).head? with
  | some { client := .catalogue, op := .eraseUnit u } => if p.on then cuEraseDone u o (finishHead p b) else p
  | _ => p

/-! ## Completions and status updates as commands -/

/-- The oldest completion is written or dropped (R148). -/
def writeOldestCompletion (p : Part) (io : List Xfer) : Part := if p.on then (Bus.start p io).nextCompletion.finish else p

/-- The gathered hand-overs are written as one update (R151). -/
def writeStatus (p : Part) (io : List Xfer) : Part := if p.on then (Bus.start p io).flushStatus.finish else p

end Sys2Proof.Machine
end

