-- ==== Sys2Proof/Machine/ExecBoard.lean ====
section
/-! DEFINITION. The meanings of RESET#, power, the link, the key switch and the passing of time (R94, R98, R101, R154, R160, R161). -/

namespace Sys2Proof.Machine

/-- RESET_ASSERT (R161). -/
def execResetAssert (low : ResetLow) (torn : TornOps) (s : State) : Host.Outcome State Fault Refusal :=
  s.apply (assertReset low torn)

/-- RESET_RELEASE (R161, R132). -/
def execResetRelease (env : MountEnv) (s : State) : Host.Outcome State Fault Refusal :=
  s.apply (releaseReset env)

/-- PCIE_LINK_RESET (R161): bus mastering goes off, and nothing else changes. -/
def execPcieLinkReset (s : State) : Host.Outcome State Fault Refusal :=
  s.apply (setMastering false)

/-- POWER_LOSS (R161). -/
def execPowerLoss (torn : TornOps) (s : State) : Host.Outcome State Fault Refusal :=
  s.apply (losePower torn)

/-- BUS_MASTERING_SWITCH (R154). -/
def execBusMasteringSwitch (on : Bool) (s : State) : Host.Outcome State Fault Refusal :=
  s.apply (setMastering on)

/-- KEYSW_CHANGE (R160). -/
def execKeyswChange (level : Bool) (s : State) : Host.Outcome State Fault Refusal :=
  s.apply (changeKeysw level)

/-- KEYSW_DEBOUNCE_EXPIRY (R160). -/
def execKeyswDebounceExpiry (s : State) : Host.Outcome State Fault Refusal :=
  s.apply debounceExpires

/-- SECONDS_TICK (R94). -/
def execSecondsTick (s : State) : Host.Outcome State Fault Refusal :=
  s.apply secondPasses

/-- WINDOW_EXPIRY (R98). -/
def execWindowExpiry (s : State) : Host.Outcome State Fault Refusal :=
  s.apply windowExpires

/-- STALENESS_EXPIRY (R101). -/
def execStalenessExpiry (key : Key) (s : State) : Host.Outcome State Fault Refusal :=
  s.apply (verdictExpires key)

end Sys2Proof.Machine
end

