-- ==== Sys2Proof/Machine/ExecCatalogue.lean ====
section
/-! DEFINITION. The meanings of the catalogue requests and of the Catalogue Unit's own work (R5, R12 to R22, R32 to R36, R87, R100, R102, R116, R118, R130, R137). -/

namespace Sys2Proof.Machine

/-- ENROL (R12 to R14). -/
def execEnrol (s : State) : Host.Outcome State Fault Refusal :=
  s.apply fun p => beginHead p (isKind .enrol) beginEnrol

/-- COMMIT (R15). -/
def execCommit (s : State) : Host.Outcome State Fault Refusal :=
  s.apply fun p => beginHead p (isKind .commit) beginCommit

/-- DISCARD (R16). -/
def execDiscard (s : State) : Host.Outcome State Fault Refusal :=
  s.apply fun p => beginHead p (isKind .discard) beginDiscard

/-- REVERT (R17). -/
def execRevert (s : State) : Host.Outcome State Fault Refusal :=
  s.apply fun p => beginHead p (isKind .revert) beginRevert

/-- RETIRE (R18). -/
def execRetire (s : State) : Host.Outcome State Fault Refusal :=
  s.apply fun p => beginHead p (isKind .retire) beginRetire

/-- READ_BASELINE (R20). -/
def execReadBaseline (s : State) : Host.Outcome State Fault Refusal :=
  s.apply fun p => beginHead p (isKind .readBaseline) beginReadBaseline

/-- LIST (R21). -/
def execList (upTo : Option Nat) (s : State) : Host.Outcome State Fault Refusal :=
  s.apply (carryOnList upTo)

/-- CLEAR_PEAKS (R22). -/
def execClearPeaks (s : State) : Host.Outcome State Fault Refusal :=
  s.apply fun p => beginHead p (isKind .clearPeaks) beginClearPeaks

/-- RULE_LOAD with a count above 0 (R32 to R35). -/
def execRuleLoad (s : State) : Host.Outcome State Fault Refusal :=
  s.apply fun p => beginHead p (fun r => isKind .ruleLoad r && decide (r.loadCount ≠ 0)) beginRuleLoad

/-- RULE_LOAD with a count of 0 (R36). -/
def execRuleSetDelete (s : State) : Host.Outcome State Fault Refusal :=
  s.apply fun p => beginHead p (fun r => isKind .ruleLoad r && decide (r.loadCount = 0)) beginRuleDelete

/-- STATION_DEFINE, the action not UNDEFINE (R87). -/
def execStationDefine (s : State) : Host.Outcome State Fault Refusal :=
  s.apply fun p => beginHead p (fun r => isKind .stationDefine r && decide (r.defineAction ≠ 2)) beginDefine

/-- STATION_DEFINE, the action UNDEFINE (R87). -/
def execStationUndefine (s : State) : Host.Outcome State Fault Refusal :=
  s.apply fun p => beginHead p (fun r => isKind .stationDefine r && decide (r.defineAction = 2)) beginUndefine

/-- PARAM_SET (R102). -/
def execParamSet (s : State) : Host.Outcome State Fault Refusal :=
  s.apply fun p => beginHead p (isKind .paramSet) beginParamSet

/-- FORMAT_STORE (R137, R138). -/
def execFormatStore (s : State) : Host.Outcome State Fault Refusal :=
  s.apply fun p => beginHead p (isKind .formatStore) beginFormat

/-- PERSISTENCE_MARK_WRITE (R100). -/
def execPersistenceMarkWrite (s : State) : Host.Outcome State Fault Refusal :=
  s.apply writeMarks

/-- ERASE_PENDING_UNITS (R116). -/
def execErasePendingUnits (s : State) : Host.Outcome State Fault Refusal :=
  s.apply erasePendingUnits

/-- RECLAIM_STEP (R118). -/
def execReclaimStep (s : State) : Host.Outcome State Fault Refusal :=
  s.apply reclaimOnce

/-- SNAPSHOT (R130). -/
def execSnapshot (s : State) : Host.Outcome State Fault Refusal :=
  s.apply writeSnapshot

/-- DAMAGED_REPORT (R5). -/
def execDamagedReport (s : State) : Host.Outcome State Fault Refusal :=
  s.apply takeReport

/-- ENROLMENT_BUFFER_READ_DONE (R13, R32). -/
def execEnrolmentBufferReadDone (host : List Host.Cell) (s : State) : Host.Outcome State Fault Refusal :=
  s.apply (hostReadDone host)

end Sys2Proof.Machine
end

