-- ==== Sys2Proof/Machine/ExecCheck.lean ====
section
/-! DEFINITION. The meanings of the Check Engine's steps and of the ends of the banks' operations (R64 to R72, R106 to R109). -/

namespace Sys2Proof.Machine

/-- CHECK (R64 to R66). -/
def execCheck (s : State) : Host.Outcome State Fault Refusal :=
  s.apply fun p => takeCheck p .check

/-- ADMIT (R64 to R66, R72). -/
def execAdmit (s : State) : Host.Outcome State Fault Refusal :=
  s.apply fun p => takeCheck p .admission

/-- CAPTURE_COMPLETE (R67). -/
def execCaptureComplete (lane : Lane) (host : List Host.Cell) (s : State) : Host.Outcome State Fault Refusal :=
  s.apply fun p => captureDone p lane host

/-- PAGE_READ_DONE (R107). -/
def execPageReadDone (bank : Bank) (errors : Nat) (s : State) : Host.Outcome State Fault Refusal :=
  s.apply (endPageRead bank errors)

/-- PAGE_PROGRAM_DONE (R108). -/
def execPageProgramDone (bank : Bank) (outcome : ProgOutcome) (s : State) : Host.Outcome State Fault Refusal :=
  s.apply (endPageProgram bank outcome)

/-- SLOT_PROGRAM_DONE (R108). -/
def execSlotProgramDone (bank : Bank) (outcome : ProgOutcome) (s : State) : Host.Outcome State Fault Refusal :=
  s.apply (endSlotProgram bank outcome)

/-- ERASE_DONE (R109). -/
def execEraseDone (bank : Bank) (outcome : EraseOutcome) (s : State) : Host.Outcome State Fault Refusal :=
  s.apply (endErase bank outcome)

end Sys2Proof.Machine
end

