-- ==== Sys2Proof/Machine/ExecLine.lean ====
section
/-! DEFINITION. The meanings of the line requests, taken at the cursor (R78, R88, R89, R95, R96, R99). -/

namespace Sys2Proof.Machine

/-- OPEN_CHANGEOVER (R95). -/
def execOpenChangeover (head : SheetHead) (target : Byte) (window : Reg) (s : State) : Host.Outcome State Fault Refusal :=
  s.apply fun p => takeLineSheet p .openChangeover head [(8, [target]), (12, leBytes 4 window.toNat)]

/-- CLOSE_CHANGEOVER (R96). -/
def execCloseChangeover (head : SheetHead) (s : State) : Host.Outcome State Fault Refusal :=
  s.apply fun p => takeLineSheet p .closeChangeover head []

/-- ABANDON_CHANGEOVER (R99). -/
def execAbandonChangeover (head : SheetHead) (s : State) : Host.Outcome State Fault Refusal :=
  s.apply fun p => takeLineSheet p .abandonChangeover head []

/-- HOLD_OUT (R88). -/
def execHoldOut (head : SheetHead) (station : Byte) (s : State) : Host.Outcome State Fault Refusal :=
  s.apply fun p => takeLineSheet p .holdOut head [(8, [station])]

/-- RESTORE (R89). -/
def execRestore (head : SheetHead) (station : Byte) (s : State) : Host.Outcome State Fault Refusal :=
  s.apply fun p => takeLineSheet p .restore head [(8, [station])]

end Sys2Proof.Machine
end

