-- ==== Sys2Proof/Machine/ExecPort.lean ====
section
/-! DEFINITION. The meanings of the register writes, the transfers and the port's own steps (R139 to R159). -/

namespace Sys2Proof.Machine

/-- EXCHANGE_TRANSFER_FAULT (R154): the same whatever made the transfer fail. -/
def execExchangeTransferFault (_why : XferFault) (s : State) : Host.Outcome State Fault Refusal :=
  s.apply exchangeFails

/-- READ_COMPLETION_TIMEOUT (R152, R154). -/
def execReadCompletionTimeout (what : TimeoutAt) (s : State) : Host.Outcome State Fault Refusal :=
  s.apply (readTimesOut what)

/-- BUFFER_TRANSFER_FAILURE (R152). -/
def execBufferTransferFailure (user : BufferUser) (s : State) : Host.Outcome State Fault Refusal :=
  s.apply (bufferFails user)

/-- EXBASE_WRITE (R140). -/
def execExbaseWrite (high : Bool) (value : Reg) (s : State) : Host.Outcome State Fault Refusal :=
  s.apply fun p => if p.on then writeExbase p high value else p

/-- EXCTL_CONFIG (R140). -/
def execExctlConfig (value : Reg) (io : List Xfer) (s : State) : Host.Outcome State Fault Refusal :=
  s.apply fun p => if p.on then writeExctl p value io else p

/-- PORT_ENABLE (R143). -/
def execPortEnable (count : BitVec 7) (interval : Byte) (io : List Xfer) (s : State) : Host.Outcome State Fault Refusal :=
  s.apply fun p => if p.on then writeExctl p (exctlValue true count interval) io else p

/-- PORT_DISABLE (R155). -/
def execPortDisable (count : BitVec 7) (interval : Byte) (s : State) : Host.Outcome State Fault Refusal :=
  s.apply fun p => if p.on then writeExctl p (exctlValue false count interval) [] else p

/-- WAKE (R144): any value asks for a scan. -/
def execWake (_value : Reg) (s : State) : Host.Outcome State Fault Refusal :=
  s.apply fun p => if p.on then askScan p else p

/-- CAUSE_CLEAR (R158). -/
def execCauseClear (value : Reg) (s : State) : Host.Outcome State Fault Refusal :=
  s.apply fun p => if p.on then writeCause p value else p

/-- CAUSECFG_WRITE (R157). -/
def execCausecfgWrite (value : Reg) (s : State) : Host.Outcome State Fault Refusal :=
  s.apply fun p => if p.on then writeCausecfg p value else p

/-- REGISTER_WRITE_OTHER (R139). -/
def execRegisterWriteOther (w : RegWrite) (s : State) : Host.Outcome State Fault Refusal :=
  s.apply fun p => writeRegister p w []

/-- SCAN_TIMER_TICK (R144). -/
def execScanTimerTick (s : State) : Host.Outcome State Fault Refusal :=
  s.apply scanTimerExpires

/-- SCAN (R145). -/
def execScan (io : List Xfer) (s : State) : Host.Outcome State Fault Refusal :=
  s.apply fun p => makeScan p io

/-- COMPLETION_WRITE (R148). -/
def execCompletionWrite (io : List Xfer) (s : State) : Host.Outcome State Fault Refusal :=
  s.apply fun p => writeOldestCompletion p io

/-- STATUS_UPDATE (R151). -/
def execStatusUpdate (io : List Xfer) (s : State) : Host.Outcome State Fault Refusal :=
  s.apply fun p => writeStatus p io

end Sys2Proof.Machine
end

