-- ==== Sys2Proof/Machine/Dispatch.lean ====
section
/-! DEFINITION. The effect of each command on everything but the queue: one arm per constructor, one direct call of its meaning. -/

namespace Sys2Proof.Machine

def exec (i : Instr) (s : State) : Host.Outcome State Fault Refusal :=
  match i with
  | .resetAssert low torn => Sys2Proof.Machine.execResetAssert low torn s
  | .resetRelease env => Sys2Proof.Machine.execResetRelease env s
  | .pcieLinkReset => Sys2Proof.Machine.execPcieLinkReset s
  | .exchangeTransferFault why => Sys2Proof.Machine.execExchangeTransferFault why s
  | .readCompletionTimeout what => Sys2Proof.Machine.execReadCompletionTimeout what s
  | .bufferTransferFailure user => Sys2Proof.Machine.execBufferTransferFailure user s
  | .exbaseWrite high value => Sys2Proof.Machine.execExbaseWrite high value s
  | .exctlConfig value io => Sys2Proof.Machine.execExctlConfig value io s
  | .portEnable count interval io => Sys2Proof.Machine.execPortEnable count interval io s
  | .portDisable count interval => Sys2Proof.Machine.execPortDisable count interval s
  | .wake value => Sys2Proof.Machine.execWake value s
  | .causeClear value => Sys2Proof.Machine.execCauseClear value s
  | .causecfgWrite value => Sys2Proof.Machine.execCausecfgWrite value s
  | .registerWriteOther w => Sys2Proof.Machine.execRegisterWriteOther w s
  | .scanTimerTick => Sys2Proof.Machine.execScanTimerTick s
  | .scan io => Sys2Proof.Machine.execScan io s
  | .completionWrite io => Sys2Proof.Machine.execCompletionWrite io s
  | .statusUpdate io => Sys2Proof.Machine.execStatusUpdate io s
  | .keyswChange level => Sys2Proof.Machine.execKeyswChange level s
  | .keyswDebounceExpiry => Sys2Proof.Machine.execKeyswDebounceExpiry s
  | .secondsTick => Sys2Proof.Machine.execSecondsTick s
  | .windowExpiry => Sys2Proof.Machine.execWindowExpiry s
  | .stalenessExpiry key => Sys2Proof.Machine.execStalenessExpiry key s
  | .openChangeover head target window => Sys2Proof.Machine.execOpenChangeover head target window s
  | .closeChangeover head => Sys2Proof.Machine.execCloseChangeover head s
  | .abandonChangeover head => Sys2Proof.Machine.execAbandonChangeover head s
  | .holdOut head station => Sys2Proof.Machine.execHoldOut head station s
  | .restore head station => Sys2Proof.Machine.execRestore head station s
  | .enrol => Sys2Proof.Machine.execEnrol s
  | .commit => Sys2Proof.Machine.execCommit s
  | .discard => Sys2Proof.Machine.execDiscard s
  | .revert => Sys2Proof.Machine.execRevert s
  | .retire => Sys2Proof.Machine.execRetire s
  | .readBaseline => Sys2Proof.Machine.execReadBaseline s
  | .list upTo => Sys2Proof.Machine.execList upTo s
  | .clearPeaks => Sys2Proof.Machine.execClearPeaks s
  | .ruleLoad => Sys2Proof.Machine.execRuleLoad s
  | .ruleSetDelete => Sys2Proof.Machine.execRuleSetDelete s
  | .stationDefine => Sys2Proof.Machine.execStationDefine s
  | .stationUndefine => Sys2Proof.Machine.execStationUndefine s
  | .paramSet => Sys2Proof.Machine.execParamSet s
  | .formatStore => Sys2Proof.Machine.execFormatStore s
  | .persistenceMarkWrite => Sys2Proof.Machine.execPersistenceMarkWrite s
  | .erasePendingUnits => Sys2Proof.Machine.execErasePendingUnits s
  | .reclaimStep => Sys2Proof.Machine.execReclaimStep s
  | .snapshot => Sys2Proof.Machine.execSnapshot s
  | .damagedReport => Sys2Proof.Machine.execDamagedReport s
  | .check => Sys2Proof.Machine.execCheck s
  | .admission => Sys2Proof.Machine.execAdmit s
  | .captureComplete lane host => Sys2Proof.Machine.execCaptureComplete lane host s
  | .pageReadDone bank errors => Sys2Proof.Machine.execPageReadDone bank errors s
  | .pageProgramDone bank outcome => Sys2Proof.Machine.execPageProgramDone bank outcome s
  | .slotProgramDone bank outcome => Sys2Proof.Machine.execSlotProgramDone bank outcome s
  | .eraseDone bank outcome => Sys2Proof.Machine.execEraseDone bank outcome s
  | .powerLoss torn => Sys2Proof.Machine.execPowerLoss torn s
  | .busMasteringSwitch on => Sys2Proof.Machine.execBusMasteringSwitch on s
  | .enrolmentBufferReadDone host => Sys2Proof.Machine.execEnrolmentBufferReadDone host s

end Sys2Proof.Machine
end

