-- ==== Sys2Proof/Safety.lean ====
section
/-! DEFINITION. What a sound state of the part is, in the terms the claims use: the permit, the memories, the queues, the
catalogue's order of generations, the registers of the port. -/

namespace Sys2Proof.Machine

/-- The condition under which CONFORM is asserted (R103), from the verdicts themselves: the line is RUNNING, the required set of
the active format is not empty, and every station passes. -/
def permitCondition (p : Part) : Bool :=
  match p.line.state, p.line.active with
  | .running, some F =>
    !(requiredSet p F).isEmpty && (List.range p.line.stations.length).all fun n => (stationStateOf p n).passing
  | _, _ => false

/-- CONFORM is asserted exactly while its condition holds; a part that does not run has no line state but UNREADY. -/
def PermitHonest (s : State) : Prop :=
  s.part.line.conform = permitCondition s.part ∧ (s.part.on = false → s.part.line.state = .unready)

/-- Host memory and the flash are in canonical form. -/
def MemoriesCanonical (s : State) : Prop := Mem.wf hostBlank s.part.host = true ∧ Mem.wf flashBlank s.part.store.flash = true

/-- Neither queue holds more than its room (R62, R8). -/
def QueuesBounded (s : State) : Prop :=
  s.part.engine.queue.length ≤ Config.checkQueueRoom ∧ s.part.cat.queue.length ≤ Config.catalogueQueueRoom

/-- Within an entry previous < current < staged, and each is below the generation counter (R2). -/
def Entry.ordered (e : Entry) : Prop :=
  (∀ a ∈ e.previous, ∀ b ∈ e.current, a.number < b.number) ∧ (∀ a ∈ e.previous, ∀ b ∈ e.staged, a.number < b.number) ∧
  (∀ a ∈ e.current, ∀ b ∈ e.staged, a.number < b.number) ∧ ∀ g ∈ e.generations, g.number < e.counter

/-- Every entry keeps the order of its generations. -/
def GenerationsOrdered (s : State) : Prop := ∀ e ∈ s.part.cat.entries, e.ordered

/-- No two entries have the same key (R1). -/
def KeysDistinct (s : State) : Prop := (s.part.cat.entries.map Entry.key).Nodup

/-- The port's registers read as R140 leaves them: the low 12 bits of the base 0, the bundle count 4 to 64. -/
def PortLegal (s : State) : Prop :=
  s.part.port.baseLo &&& 0xFFF#32 = 0#32 ∧ 4 ≤ s.part.port.count ∧ s.part.port.count ≤ 64

/-- The tables keep their sizes: 16 stations, 64 rule sets, 64 bundles, and as many units as there were. -/
def TablesWhole (s : State) : Prop :=
  s.part.line.stations.length = 16 ∧ s.part.rules.length = 64 ∧ s.part.port.bundles.length = 64

/-- RESET# arrives during this transfer. -/
def resetsDuring (x : Xfer) : Bool :=
  match x.event with
  | some (.reset _) => true
  | some (.disable _ _) => false
  | some .ask => false
  | none => false

/-- The volatile items of the store as R124 gives them after RESET#: nothing in progress, pinned, marked or open; R, the bad-unit list,
the classes and the live pages not known. -/
def StoreVolatilesReset (s : Store) : Prop :=
  s.bank0 = [] ∧ s.bank1 = [] ∧ s.openUnit = none ∧ s.lastBank = none ∧ s.runFlag = false ∧ s.recordSize = none ∧
  ∀ u, (s.unit u).readers = 0 ∧ (s.unit u).weak = false ∧ (s.unit u).pending = false ∧ (s.unit u).skip = false ∧
    (s.unit u).passed = false ∧ (s.unit u).bad = false ∧ (s.unit u).cls = none ∧ (s.unit u).live = 0

/-! ## Situations the claims speak of -/

/-- It is the turn of the head of the catalogue queue. -/
def RequestTurn (s : State) (r : Request) (rest : List Request) : Prop :=
  s.part.on = true ∧ cuTurn s.part = .request ∧ s.part.cat.queue = r :: rest

/-- The journal takes k records: the next slot lies in unit u, the room test passes, a number is left (R127, R125). -/
def RoomFor (p : Part) (u k : Nat) : Prop :=
  slotPlace p.store p.cat.writeUnit false = .here u ∧ k + Config.largestSnapshot ≤ freeRoom p ∧ p.cat.nextSeq ≤ top32

/-- A request is handed to the port with a code, a result area and findings. -/
def Completes (p q : Part) (r : Request) (code : Code) (result findings : Option (List Byte)) : Prop :=
  q.port.completions = p.port.completions ++
    [{ bundle := r.bundle, sheet := r.sheet, enablement := r.enablement, quiet := r.quiet, code := code, result := result
       findings := findings }]

/-- The head request is over: its completion handed over, the Catalogue Unit between requests, the rest still queued. -/
def EndsRequest (s t : State) (r : Request) (rest : List Request) (code : Code) (result : List Byte) : Prop :=
  Completes s.part t.part r code (some result) none ∧ t.part.cat.work = .idle ∧ t.part.cat.req = none ∧ t.part.cat.queue = rest ∧
  t.pending = s.pending

/-- The head request has asked unit u for the slot of the first of its records, and nothing recorded has changed yet (R10). -/
def BeginsRecord (s t : State) (r : Request) (rest : List Request) (u : Nat) (recs : List JournalRecord) (w : Writer) : Prop :=
  t.pending = s.pending ∧ t.part.cat.queue = rest ∧ t.part.cat.req = some r ∧
  t.part.store = s.part.store.ask .catalogue
    (.programSlot u (s.part.store.unit u).slots (slotEncode s.part.cat.nextSeq (recs.headD .commitEnd))) ∧
  t.part.cat.await = some (.slot recs s.part.cat.nextSeq w) ∧ t.part.cat.nextSeq = s.part.cat.nextSeq + 1 ∧
  t.part.cat.entries = s.part.cat.entries ∧ t.part.rules = s.part.rules ∧ t.part.engine = s.part.engine ∧
  t.part.host = s.part.host ∧ t.part.att = s.part.att ∧ t.part.port.completions = s.part.port.completions

/-- The port with its cursor one sheet on (R147): past sheet 7 its bundle is no longer fresh, and the next bundle, or bundle 0 after the
last, follows. -/
def Port.pastSheet (x : Port) : Port :=
  if x.cursorS = 7 then
    { x with
      cursorB := if x.cursorB + 1 < x.count then x.cursorB + 1 else 0, cursorS := 0
      bundles := modifyNth (fun y => { y with fresh := false }) x.cursorB x.bundles }
  else { x with cursorS := x.cursorS + 1 }

/-- What a scan that goes on past the sheet at the cursor finds there: a BLANK sheet in a fresh bundle, or a bundle not fresh. -/
def EndsAfterSheet (p : Part) : Prop :=
  (p.port.pastSheet.bundle p.port.pastSheet.cursorB).fresh = true →
    p.port.pastSheet.sheetAddress p.port.pastSheet.cursorB p.port.pastSheet.cursorS + 256 ≤ 2 ^ 64 ∧
    p.hostRead (p.port.pastSheet.sheetAddress p.port.pastSheet.cursorB p.port.pastSheet.cursorS) 1 = [0x00#8]

/-- The port state in which such a scan ends (R145). -/
def Port.stateAfterSheet (x : Port) : PortState :=
  if (x.pastSheet.bundle x.pastSheet.cursorB).fresh then .running else .waiting

/-- A line request can be taken at the cursor of a READY part, from a SUPERVISOR: the port is live, the cursor's bundle fresh, the
sheet inside the address space, bus mastering on. -/
def LineTurn (s : State) (head : SheetHead) : Prop :=
  s.part.on = true ∧ s.part.port.live = true ∧ s.part.device = .ready ∧
  (s.part.port.bundle s.part.port.cursorB).fresh = true ∧ s.part.pins.mastering = true ∧
  s.part.port.sheetAddress s.part.port.cursorB s.part.port.cursorS + 256 ≤ 2 ^ 64 ∧ head.origin = 1#8

/-- A line request has been decided at its take: its completion, OK, waits at the port. -/
def LineDone (s t : State) (head : SheetHead) (items : List (Nat × List Byte)) : Prop :=
  t.pending = s.pending ∧
  t.part.port.completions = s.part.port.completions ++
    [{ bundle := s.part.port.cursorB, sheet := s.part.port.cursorS, enablement := s.part.port.enablement.getD 0
       quiet := head.flags.getLsbD 0, code := .ok, result := some (resultArea items), findings := none }]

/-- Every verdict returned to UNCHECKED with the present second and a given epoch; nothing else of an entry changes. -/
def uncheckedAll (es : List Entry) (second epoch : Nat) : List Entry :=
  es.map fun e => { e with verdict := .unchecked, second := second, epoch := epoch }

/-- A catalogue request that needs the key comes from a SUPERVISOR with the key on, and the part is READY (R9, R76). -/
def Admitted (s : State) (r : Request) : Prop := s.part.device = .ready ∧ r.origin = 1#8 ∧ r.keyOn = true ∧ frozen s.part r = false

/-- Every field of a generation fits its place in a slot (R165, Record Slot). -/
def Generation.fits (g : Generation) : Prop :=
  g.number < 2 ^ 32 ∧ g.length < 2 ^ 16 ∧ g.unit < 2 ^ 16 ∧ g.first < 2 ^ 8 ∧ g.pages < 2 ^ 8 ∧ g.crc < 2 ^ 32

/-- Every part of a key fits its byte. -/
def keyFits (k : Key) : Prop := k.station < 2 ^ 8 ∧ k.block < 2 ^ 8 ∧ k.format < 2 ^ 8

/-- Every field of a record fits its place in a slot (R165, Record Slot); an undefined station has no byte order to carry. -/
def JournalRecord.Fits : JournalRecord → Prop
  | .entry _ e =>
    keyFits e.key ∧ e.ruleSet < 2 ^ 8 ∧ e.counter < 2 ^ 32 ∧ ∀ g, g ∈ e.staged ∨ g ∈ e.current ∨ g ∈ e.previous → g.fits
  | .entryGone k => keyFits k
  | .ruleset _ n i => n < 2 ^ 8 ∧ i.unit < 2 ^ 16 ∧ i.first < 2 ^ 8 ∧ i.pages < 2 ^ 8 ∧ i.count < 2 ^ 16 ∧ i.crc < 2 ^ 32
  | .rulesetGone n => n < 2 ^ 8
  | .station n s => n < 2 ^ 8 ∧ s.name.length = 8 ∧ (s.defined = false → s.order = .big)
  | .param ps => ps.staleness < 2 ^ 32
  | .format f => f < 2 ^ 8
  | .bad us => us.length ≤ 16 ∧ ∀ u ∈ us, u < 2 ^ 16
  | .commitBegin f n => f < 2 ^ 8 ∧ n < 2 ^ 16
  | .commitEnd => True
  | .snapBegin r => r < 2 ^ 8
  | .snapEnd n => n < 2 ^ 16

end Sys2Proof.Machine
end

