-- ==== Sys2Proof/Certificates/Slice0/Obligations.lean ====
section
/-! DEFINITION. The statements about the model, one definition each. -/

open Sys2Proof Sys2Proof.Machine

/-! ## The machine -/

/-- A step runs the command at the front of the queue with the queue's rest; with none waiting the part idles (the idling is the
model's choice, log 1). -/
def Obligations.StepRunsTheFrontCommand : Prop :=
  ∀ s : State, (∀ c cs, s.pending = c :: cs → step s = exec c { s with pending := cs }) ∧ (s.pending = [] → step s = .next s)

/-! ## Invariants kept by every step -/

/-- R103: CONFORM is asserted exactly while the line is RUNNING, the required set of F is not empty and every station passes. -/
def Obligations.PermitIsHonestAfterEveryStep : Prop := ∀ s t : State, PermitHonest s → step s = .next t → PermitHonest t

/-- R2: the order of the generations of an entry is kept by every step but mount, which rebuilds entries from the flash. -/
def Obligations.GenerationOrderIsKept : Prop :=
  ∀ s t : State, (∀ env cs, s.pending ≠ .resetRelease env :: cs) → GenerationsOrdered s → step s = .next t → GenerationsOrdered t

/-- R1: no step makes two entries with the same key, mount included. -/
def Obligations.KeysStayDistinct : Prop := ∀ s t : State, KeysDistinct s → step s = .next t → KeysDistinct t

/-- Host memory and flash keep their canonical form; the form is the model's own (logs 2 and 3). -/
def Obligations.MemoriesStayCanonical : Prop := ∀ s t : State, MemoriesCanonical s → step s = .next t → MemoriesCanonical t

/-- R62, R8, R140, R86, R23: no step puts more than 12 requests in the check queue or more than 4 in the catalogue queue; the base
stays a multiple of 4096, the bundle count in 4 to 64, and the tables keep their sizes. -/
def Obligations.QueuesAndTablesStayLegal : Prop :=
  ∀ s t : State, QueuesBounded s ∧ PortLegal s ∧ TablesWhole s → step s = .next t → QueuesBounded t ∧ PortLegal t ∧ TablesWhole t

/-- The state after RESET# meets every invariant. -/
def Obligations.ResetMeetsTheInvariants : Prop :=
  PermitHonest State.reset ∧ GenerationsOrdered State.reset ∧ KeysDistinct State.reset ∧ MemoriesCanonical State.reset ∧
  QueuesBounded State.reset ∧ PortLegal State.reset ∧ TablesWhole State.reset

/-! ## Rules of the whole machine -/

/-- R103: whatever the command, when CONFORM passes from asserted to deasserted in a part that goes on running, CONFORM_LOST is
pending after it. -/
def Obligations.LosingConformIsRaised : Prop :=
  ∀ (c : Instr) (s t : State), exec c s = .next t → s.part.line.conform = true → t.part.line.conform = false → t.part.on = true →
    t.part.isPending .conformLost = true

/-- R93: no command but a line request (taken by itself or in a scan) or a reset changes the verdict epoch; a reset that arrives during
the transfers of a command is one. -/
def Obligations.EpochMovesOnlyByLineRequest : Prop :=
  ∀ (c : Instr) (s t : State), exec c s = .next t →
    (match c with
      | .openChangeover _ _ _ => False
      | .abandonChangeover _ => False
      | .scan _ => False
      | .resetAssert _ _ => False
      | .resetRelease _ => False
      | .powerLoss _ => False
      | .completionWrite io => io.all (fun x => !resetsDuring x) = true
      | .statusUpdate io => io.all (fun x => !resetsDuring x) = true
      | .portEnable _ _ io => io.all (fun x => !resetsDuring x) = true
      | .exctlConfig _ io => io.all (fun x => !resetsDuring x) = true
      | _ => True) → t.part.line.epoch = s.part.line.epoch

/-- R92: outside mount, a change of the line state, the active or the target format leaves LINE_STATE pending in a part that goes
on running. -/
def Obligations.LineChangeIsRaised : Prop :=
  ∀ (c : Instr) (s t : State), exec c s = .next t → (∀ env, c ≠ .resetRelease env) → t.part.on = true →
    (t.part.line.state ≠ s.part.line.state ∨ t.part.line.active ≠ s.part.line.active ∨ t.part.line.target ≠ s.part.line.target) →
    t.part.isPending .lineState = true

/-! ## The journal's encoding -/

/-- R125, R165: a record slot read back gives the sequence number and the record that were written, for every record whose fields
fit their places; the record of an undefined station carries no byte order, so it reads back with BIG, the order the model gives such
a place (log 28). -/
def Obligations.RecordSlotRoundTrip : Prop :=
  (∀ (seq : Nat) (r : JournalRecord), seq < 2 ^ 32 → r.Fits → slotDecode (slotEncode seq r) = some (seq, r)) ∧
  ∀ (seq n : Nat) (x : StationImage), seq < 2 ^ 32 → n < 2 ^ 8 → x.name.length = 8 → x.defined = false →
    slotDecode (slotEncode seq (.station n x)) = some (seq, .station n { x with order := .big })

/-! ## Field rules and the comparison -/

/-- R27: the fields and the uncovered bytes of a walk together account for every offset from 0 to L − 1 exactly once: the widths
add up to L, and each piece begins where the one before it ends. -/
def Obligations.WalkCoversEveryByte : Prop :=
  ∀ (rules : List FieldRule) (L : Nat),
    ((claimWalk rules L).1.map Piece.width).sum = L ∧
    ∀ (before after : List Piece) (x : Piece), (claimWalk rules L).1 = before ++ x :: after →
      (match x with
        | .claimed o _ _ => o
        | .uncovered o => o) = (before.map Piece.width).sum

/-- R40 to R56: an image compared with itself is CONFORM with no finding, unless it holds a malformed BCD field or a band does not
contain zero. -/
def Obligations.ImageConformsToItself : Prop :=
  ∀ (rules : List FieldRule) (order : ByteOrder) (image : List Byte),
    screenImage order image (claimWalk rules image.length).1 = none →
    (∀ r ∈ rules, ∀ lo hi, r.policy = .bandAbs lo hi → lo ≤ 0 ∧ 0 ≤ hi) →
    (compareImages rules order image image).1.verdict = .conform ∧ (compareImages rules order image image).1.total = 0 ∧
    (compareImages rules order image image).1.kept = [] ∧ (compareImages rules order image image).1.tolerated = 0

/-! ## The decision of an admission -/

/-- R80 to R83: GRANTED is answered exactly when the request is not a SUPERVISOR's, the proposed image was read, and either an
ENGINEER asks for a held-out station with the key on, or the verdict passes, is current, and it is an OPERATOR in RUNNING with
operator-admit on or an ENGINEER with the key on in CHANGEOVER or SETTLING. -/
def Obligations.AdmitGrantedExactlyWhen : Prop :=
  ∀ (p : Part) (n : Notice), n.req.originValid = true →
    ((decideAdmit p n).decision = .granted ↔
      n.outcome ≠ .code .transferError ∧ n.req.origin ≠ 1#8 ∧
      ((n.req.origin = 2#8 ∧ (p.line.station n.req.station).defined = true ∧ (p.line.station n.req.station).heldOut = true ∧
          n.req.keyOn = true) ∨
        ∃ t : Tally, n.outcome = .verdict t ∧ (t.verdict = .conform ∨ t.verdict = .tolerated) ∧ stillCurrent p n = true ∧
          ((p.line.state = .running ∧ n.req.origin = 3#8 ∧ p.line.params.operatorAdmit = true) ∨
            ((p.line.state = .changeover ∨ p.line.state = .settling) ∧ n.req.origin = 2#8 ∧ n.req.keyOn = true))))

/-! ## RESET#, power, the link -/

/-- R161, R124, R139: a pulse taken as a reset returns every volatile item to its value after RESET#; with no store operation in
progress the flash, and what it records of each unit, stay; the registers read as R139 gives. A pulse shorter than 2 µs, or one of the
range between that is filtered, has no effect. Where the manual gives an item no value after RESET# (byte order and name of an
undefined station, scratch items, uids and enablement numbers) the value is the model's (logs 6, 25 and 28). -/
def Obligations.ResetPulse : Prop :=
  ∀ (s : State) (ns : Nat) (taken : Bool) (torn : TornOps), s.part.on = true →
    ((10000 ≤ ns ∨ (2000 ≤ ns ∧ taken = true)) → ∃ t, exec (.resetAssert (.pulse ns taken) torn) s = .next t ∧
      t.pending = s.pending ∧ t.part.on = false ∧ t.part.device = .mounting ∧ t.part.gap = false ∧ t.part.att = Attention.reset ∧
      t.part.key = { level := false, running := false } ∧ t.part.line = Line.reset ∧ (∀ x ∈ t.part.rules, x = RuleSet.absent) ∧
      t.part.cat = CatUnit.reset ∧ t.part.engine = Engine.reset ∧ t.part.port = Port.reset ∧ t.part.host = s.part.host ∧
      t.part.alertAsserted = false ∧ t.part.noteAsserted = false ∧ t.part.conformLevel = false ∧
      StoreVolatilesReset t.part.store ∧ t.part.store.fuses = s.part.store.fuses ∧
      t.part.pins = { s.part.pins with resetLow := true } ∧
      readWindow t.part 0 32 = [0x01#8, 0x00#8, 0x60#8, 0x31#8] ++ List.replicate 12 0x00#8 ++ [0x00#8, 0x04#8, 0x0A#8, 0x00#8] ++
        List.replicate 8 0x00#8 ++ [0xFF#8, 0x03#8, 0xE0#8, 0x03#8] ∧
      (s.part.store.bank0 = [] → s.part.store.bank1 = [] → t.part.store.flash = s.part.store.flash ∧
        ∀ u, (t.part.store.unit u).mode = (s.part.store.unit u).mode ∧ (t.part.store.unit u).pages = (s.part.store.unit u).pages ∧
          (t.part.store.unit u).slots = (s.part.store.unit u).slots)) ∧
    ((ns < 2000 ∨ (ns < 10000 ∧ taken = false)) → exec (.resetAssert (.pulse ns taken) torn) s = .next s)

/-- R161, R162, R124: a power loss ends as a reset does, with the supplies down: every volatile item takes its value after RESET#
(values the manual leaves open are the model's, logs 6, 25 and 28); the permit is low until power returns, and power coming on is a
RESET# held low. -/
def Obligations.PowerLossAndReturn : Prop :=
  ∀ (s : State) (torn torn' : TornOps), s.part.pins.powered = true → ∃ t u, exec (.powerLoss torn) s = .next t ∧
    t.part.pins = { s.part.pins with powered := false, resetLow := true } ∧ t.part.conformLevel = false ∧
    t.part.alertAsserted = false ∧ t.part.noteAsserted = false ∧ t.part.device = .mounting ∧ t.part.gap = false ∧
    t.part.att = Attention.reset ∧ t.part.key = { level := false, running := false } ∧ t.part.line = Line.reset ∧
    (∀ x ∈ t.part.rules, x = RuleSet.absent) ∧ t.part.port = Port.reset ∧
    t.part.engine = Engine.reset ∧ t.part.cat = CatUnit.reset ∧ StoreVolatilesReset t.part.store ∧
    t.part.store.fuses = s.part.store.fuses ∧
    (s.part.store.bank0 = [] → s.part.store.bank1 = [] → t.part.store.flash = s.part.store.flash ∧
      ∀ v, (t.part.store.unit v).mode = (s.part.store.unit v).mode ∧ (t.part.store.unit v).pages = (s.part.store.unit v).pages ∧
        (t.part.store.unit v).slots = (s.part.store.unit v).slots) ∧
    t.part.host = s.part.host ∧ t.pending = s.pending ∧
    exec (.resetAssert .powerOn torn') t = .next u ∧ u.part.pins.powered = true ∧ u.part.on = false ∧
    u.part.line = Line.reset ∧ u.part.port = Port.reset ∧ u.part.cat = CatUnit.reset ∧ u.part.engine = Engine.reset ∧
    u.part.att = Attention.reset ∧ u.part.device = .mounting ∧ StoreVolatilesReset u.part.store ∧
    u.part.store.flash = t.part.store.flash ∧ u.pending = s.pending

/-- R161, R132, R136: released over a store that holds no record, the part starts its seconds at 0 and its stability timer, and
mount ends UNFORMATTED with the next sequence number 1. R133, R134, R135, R126, R4, R92: over a store whose chosen snapshot and every
number after it up to the highest are carried, with no unit to erase, mount ends READY: the catalogue, the rule sets, the stations, the
parameters, the format and the bad-unit list are those the records leave, entries UNCHECKED, the line RUNNING or NO_FORMAT, LINE_STATE
raised, and STATION pending or not as before (DEDUCED, log 38). R133: the snapshot chosen is complete and no complete one begins at a higher number; none is chosen where none is complete.
R129: a commit group with its COMMIT_END changes all its entries, and without it none. -/
def Obligations.ReleaseOverBlankStore : Prop :=
  (∀ (s : State) (env : MountEnv), s.part.pins.powered = true → s.part.pins.resetLow = true → s.part.cat = CatUnit.reset →
    s.part.store.bank0 = [] → s.part.store.bank1 = [] → (∀ u < 64, (s.part.store.unit u).mode ≠ .record) →
    ∃ t, exec (.resetRelease env) s = .next t ∧ t.part.on = true ∧ t.part.device = .unformatted ∧ t.part.cat.nextSeq = 1 ∧
      t.part.cat.entries = [] ∧ t.part.line = { s.part.line with seconds := 0 } ∧ t.part.key.running = true ∧ t.part.gap = false ∧
      t.part.store.flash = s.part.store.flash ∧ t.pending = s.pending) ∧
  (∀ (s : State) (env : MountEnv) (found vs : List ValidSlot) (h begin R : Nat) (x : Replay),
    s.part.pins.powered = true → s.part.pins.resetLow = true → s.part.cat = CatUnit.reset →
    s.part.store.bank0 = [] → s.part.store.bank1 = [] →
    found = allValid env s.part.store → h = highest found → chooseSnapshot found = some (begin, R) →
    vs = found.filter (fun v => decide (v.unit < R)) → (∀ n, begin ≤ n → n ≤ h → recordAt vs n ≠ none) →
    x = ((List.range (h + 1 - begin)).filterMap fun i => recordAt vs (begin + i)).foldl Replay.meet Replay.start →
    (∀ u < R, isOldRecordUnit vs begin h (rebuild env R x s.part).store u = false) →
    dirtyUnits (rebuild env R x s.part).store = [] →
    ∃ t, exec (.resetRelease env) s = .next t ∧ t.part.on = true ∧ t.part.device = .ready ∧ t.part.gap = false ∧
      t.part.cat.nextSeq = h + 1 ∧ t.part.cat.work = .idle ∧ t.part.store.recordSize = some R ∧
      t.part.cat.entries = x.entries.mapIdx (fun i e =>
        { uid := i, key := e.key, counter := e.counter, ruleSet := e.ruleSet, staged := e.staged, current := e.current
          previous := e.previous, damaged := false, verdict := .unchecked, second := 0, epoch := 0
          bandPeak := { usage := 0, rule := none, offset := 0 }, trackPeak := { magnitude := 0, offset := 0 } }) ∧
      t.part.rules.map RuleSet.image = x.sets ∧
      (∀ (n : Nat) (img : SetImage), x.sets[n]? = some (some img) → t.part.rules[n]? = some
        (if imageWhole env s.part.store img.span then .loaded img (rulesOf (imageBytes s.part.store img.span) img.count)
          else .faulted img)) ∧
      t.part.line.stations.map Station.image = x.stations ∧ t.part.line.params = x.params ∧ t.part.line.active = x.format ∧
      t.part.line.state = (if x.format = none then .noFormat else .running) ∧ t.part.line.seconds = 0 ∧
      t.part.line.epoch = s.part.line.epoch ∧ t.part.isPending .lineState = true ∧
      t.part.isPending .station = s.part.isPending .station ∧
      (∀ u < s.part.store.units.length, (t.part.store.unit u).bad = decide (u ∈ x.bad)) ∧
      t.part.store.flash = s.part.store.flash ∧ t.part.host = s.part.host ∧ t.pending = s.pending) ∧
  (∀ (vs : List ValidSlot) (b R : Nat), chooseSnapshot vs = some (b, R) →
    (∃ v ∈ vs, v.seq = b ∧ v.record = .snapBegin R) ∧
    (∃ v ∈ vs, ∃ c, v.record = .snapEnd c ∧ v.seq = b + c + 1 ∧
      ∀ i < c, ∃ r, recordAt vs (b + 1 + i) = some r ∧ (∀ k, r ≠ .snapBegin k) ∧ ∀ k, r ≠ .snapEnd k) ∧
    ∀ v ∈ vs, ∀ k, v.record = .snapBegin k → completeAt vs v.seq = true → v.seq ≤ b) ∧
  (∀ vs : List ValidSlot, chooseSnapshot vs = none → ∀ v ∈ vs, ∀ k, v.record = .snapBegin k → completeAt vs v.seq = false) ∧
  (∀ (x : Replay) (f : Nat) (es : List EntryImage) (group : List JournalRecord), x.group = none → (∀ e ∈ es, e.key.format = f) →
    group = .commitBegin f es.length :: es.map (.entry .change) →
    (group ++ [JournalRecord.commitEnd]).foldl Replay.meet x = es.foldl Replay.putEntry x ∧ (group.foldl Replay.meet x).entries = x.entries ∧
    ∀ ps, (group ++ [JournalRecord.param ps]).foldl Replay.meet x = x.apply (.param ps))

/-- R161, R154: a reset of the link alone and a switch of bus mastering change nothing but bus mastering; while it is off, the next
transfer on the exchange area, here a status update, fails and halts the port: nothing is written, the enablement ends, the queued
requests are discarded, EXCHANGE_FAULT is raised. -/
def Obligations.BusMasteringOffHaltsTheNextTransfer : Prop :=
  ∀ (s : State) (on : Bool),
    exec .pcieLinkReset s = .next { s with part := { s.part with pins := { s.part.pins with mastering := false } } } ∧
    exec (.busMasteringSwitch on) s = .next { s with part := { s.part with pins := { s.part.pins with mastering := on } } } ∧
    (s.part.on = true → s.part.port.live = true → s.part.port.changed ≠ [] → s.part.pins.mastering = false →
      ∃ t, exec (.statusUpdate []) s = .next t ∧ t.part.port.state = .halted ∧ t.part.port.enablement = none ∧
        t.part.port.timer = none ∧ t.part.isPending .exchangeFault = true ∧ t.part.engine.queue = [] ∧ t.part.cat.queue = [] ∧
        t.part.host = s.part.host ∧ t.part.port.updates = s.part.port.updates)

/-- R154: a failed transfer on the exchange area, or its read completion not arriving, halts the port, ends the enablement, raises
EXCHANGE_FAULT and discards the queues; requests in the lanes and in the Catalogue Unit go on. -/
def Obligations.ExchangeFaultHalts : Prop :=
  ∀ (s : State) (why : XferFault), s.part.on = true → s.part.port.live = true →
    ∃ t, exec (.exchangeTransferFault why) s = .next t ∧ exec (.readCompletionTimeout .exchange) s = .next t ∧
      t.part.port = { s.part.port with state := .halted, enablement := none, timer := none } ∧
      t.part.att = { s.part.att with pending := s.part.att.pending ||| (1#10 <<< 8) } ∧
      t.part.engine = { s.part.engine with queue := [] } ∧ t.part.cat = { s.part.cat with queue := [], beginFirst := false } ∧
      t.part.line = s.part.line ∧ t.part.rules = s.part.rules ∧ t.part.store = s.part.store ∧ t.part.host = s.part.host ∧
      t.part.pins = s.part.pins ∧ t.part.key = s.part.key ∧ t.part.device = s.part.device ∧ t.pending = s.pending

/-- R67, R152: a failed transfer of a captured image ends a CHECK TRANSFER_ERROR: the pin is released, no page is asked for, the
lane is IDLE, the summary carries no verdict and, as format used, the format of the entry found (R65), and the port is not halted; its
other items are zero or none (DEDUCED, log 18). R72, R80, R85: an ADMIT so ended is REFUSED with the reason TRANSFER_ERROR. R13, R21, R32: a failed transfer of the Catalogue
Unit's request ends it TRANSFER_ERROR with nothing changed, a LIST with the number of records written before it; R20: with a page read
of a READ_BASELINE under way, the request is to end so once that read ends (log 24). That the failed write of a LIST or a
READ_BASELINE has put nothing into the host buffer is the model's choice (log 61). -/
def Obligations.CaptureFailureEndsTheCheck : Prop :=
  (∀ (s : State) (l : Lane) (r : Request) (u : Nat), s.part.on = true → (s.part.engine.lane l).state = .capturing →
    (s.part.engine.lane l).req = some r → r.kind = .check ∨ r.kind = .admission → (s.part.engine.lane l).pin = some u →
    u < s.part.store.units.length →
    ∃ t, exec (.bufferTransferFailure (.lane l)) s = .next t ∧ exec (.readCompletionTimeout (.buffer (.lane l))) s = .next t ∧
      Completes s.part t.part r .transferError
        (some (resultArea ((Summary.uncompared ((s.part.engine.lane l).setup.map LaneSetup.key)).items ++ (if r.kind = .check then [] else
          [(104, leBytes 1 3), (105, leBytes 1 (boolNat r.keyOn)), (106, leBytes 1 s.part.line.state.value), (107, leBytes 1 0),
           (108, leBytes 2 0x50)])))) (some (List.replicate 128 0#8)) ∧
      (t.part.engine.lane l).state = .idle ∧ (t.part.store.unit u).readers = (s.part.store.unit u).readers - 1 ∧
      t.part.store.bank0 = s.part.store.bank0 ∧ t.part.store.bank1 = s.part.store.bank1 ∧ t.part.port.state = s.part.port.state ∧
      t.part.att = s.part.att ∧ t.part.cat = s.part.cat ∧ t.part.line = s.part.line ∧ t.part.host = s.part.host ∧
      t.pending = s.pending) ∧
  (∀ (s : State) (r : Request), s.part.on = true → s.part.cat.req = some r →
    (s.part.cat.await = some .hostRead → ∃ t, exec (.bufferTransferFailure .catalogue) s = .next t ∧
      exec (.readCompletionTimeout (.buffer .catalogue)) s = .next t ∧
      EndsRequest s t r s.part.cat.queue .transferError emptyResult ∧ t.part.cat.entries = s.part.cat.entries ∧
      t.part.rules = s.part.rules ∧ t.part.line = s.part.line ∧ t.part.att = s.part.att ∧ t.part.host = s.part.host ∧
      t.part.store.flash = s.part.store.flash ∧ t.part.port.state = s.part.port.state) ∧
    (∀ n, s.part.cat.await = some (.listing n) → ∃ t, exec (.bufferTransferFailure .catalogue) s = .next t ∧
      EndsRequest s t r s.part.cat.queue .transferError (resultArea [(64, leBytes 4 n)]) ∧
      t.part.cat.entries = s.part.cat.entries ∧ t.part.rules = s.part.rules ∧ t.part.line = s.part.line ∧
      t.part.att = s.part.att ∧ t.part.host = s.part.host ∧ t.part.port.state = s.part.port.state) ∧
    (∀ i, s.part.cat.await = some (.readBack i) → s.part.cat.todo = [] → exec (.bufferTransferFailure .catalogue) s =
      .next { s with part := { s.part with cat := { s.part.cat with todo := [.readBackEnd .transferError] } } }))

/-! ## The registers -/

/-- R140: while the port is DISABLED a write to EXBASE_HI or EXBASE_LO is taken, the low 12 bits of EXBASE_LO discarded; otherwise it
is ignored. -/
def Obligations.BaseRegisterWrites : Prop :=
  ∀ (s : State) (v : Reg), s.part.on = true →
    (s.part.port.state = .disabled →
      exec (.exbaseWrite true v) s = .next { s with part := { s.part with port := { s.part.port with baseHi := v } } } ∧
      ∃ t, exec (.exbaseWrite false v) s = .next t ∧
        t = { s with part := { s.part with port := { s.part.port with baseLo := t.part.port.baseLo } } } ∧
        (∀ i < 12, t.part.port.baseLo.getLsbD i = false) ∧ ∀ i, 12 ≤ i → t.part.port.baseLo.getLsbD i = v.getLsbD i) ∧
    (s.part.port.state ≠ .disabled → ∀ high, exec (.exbaseWrite high v) s = .next s)

/-- R140: EXCTL written with enable 0 while DISABLED takes the count, clamped into 4 to 64, and the interval; written with enable 1
while enabled it takes the interval alone and restarts the timer; in HALTED (R144, R154: no tick there, the timer stopped) it takes
the interval alone and starts no timer (DEDUCED, log 44). -/
def Obligations.ExctlConfiguration : Prop :=
  ∀ (s : State) (v : Reg) (io : List Xfer), s.part.on = true →
    (s.part.port.state = .disabled → v.getLsbD 0 = false →
      exec (.exctlConfig v io) s = .next { s with part := { s.part with port := { s.part.port with
        interval := v.toNat / 65536 % 256, count := max 4 (min 64 (v.toNat / 256 % 128)) } } }) ∧
    (s.part.port.live = true → v.getLsbD 0 = true →
      exec (.exctlConfig v io) s = .next { s with part := { s.part with port := { s.part.port with
        interval := v.toNat / 65536 % 256
        timer := if v.toNat / 65536 % 256 = 0 then none else some (v.toNat / 65536 % 256) } } }) ∧
    (s.part.port.state = .halted → v.getLsbD 0 = true →
      exec (.exctlConfig v io) s = .next { s with part := { s.part with port := { s.part.port with
        interval := v.toNat / 65536 % 256 } } })

/-- R143, R151: enabling begins a new enablement with the cursor at the start, every bundle of the count fresh, the counts 0; the
whole status page is written, every item at its place from the values the blocks hold, and the update count raised and written; every
other byte stays; then the timer starts and a scan is asked for, unless the device is MOUNTING (R144). -/
def Obligations.EnableBeginsAnEnablement : Prop :=
  ∀ (s : State) (count : BitVec 7) (interval : Byte), s.part.on = true → s.part.port.state = .disabled →
    s.part.pins.mastering = true → s.part.port.base + 4096 ≤ 2 ^ 64 → Mem.wf hostBlank s.part.host = true →
    (∀ x ∈ s.part.line.stations, x.name.length = 8) →
    ∃ t, exec (.portEnable count interval []) s = .next t ∧ t.part.port.state = .running ∧
      t.part.port.enablement = some s.part.port.nextEnable ∧ t.part.port.cursorB = 0 ∧ t.part.port.cursorS = 0 ∧
      t.part.port.count = max 4 (min 64 count.toNat) ∧ t.part.port.interval = interval.toNat ∧
      t.part.port.completed = 0 ∧
      t.part.port.scanAsked = (s.part.port.scanAsked || decide (s.part.device ≠ .mounting)) ∧
      t.part.port.timer = (if interval.toNat = 0 then none else some interval.toNat) ∧
      (∀ b < s.part.port.bundles.length,
        t.part.port.bundle b = { fresh := decide (b < max 4 (min 64 count.toNat)), done := 0, wipes := 0 }) ∧
      t.part.port.updates = (s.part.port.updates + 1) % 2 ^ 32 ∧ t.part.port.changed = [] ∧ t.part.port.copy = statusNow t.part ∧
      t.part.hostRead s.part.port.base 4 = leBytes 4 ((s.part.port.updates + 1) % 2 ^ 32) ∧
      (∀ i ∈ statusItems, t.part.hostRead (s.part.port.base + i.offset) (t.part.port.copy.bytes i).length = t.part.port.copy.bytes i) ∧
      t.part.hostRead (s.part.port.base + 4) 1 = leBytes 1 s.part.device.value ∧
      (∀ a, (a < s.part.port.base ∨ s.part.port.base + 4 ≤ a) →
        (∀ i ∈ statusItems, a < s.part.port.base + i.offset ∨ s.part.port.base + i.offset + (t.part.port.copy.bytes i).length ≤ a) →
        Mem.read hostBlank t.part.host a = Mem.read hostBlank s.part.host a) ∧
      t.part.engine = s.part.engine ∧ t.part.cat = s.part.cat ∧ t.part.line = s.part.line ∧ t.part.att = s.part.att ∧
      t.part.store = s.part.store ∧ t.part.rules = s.part.rules ∧ t.pending = s.pending

/-- R155: disabling ends the enablement, stops the timer, discards the queues and the scan-pending flag; the lanes, the request in
hand, the cursor, the bundles and the counts stay. -/
def Obligations.DisableEndsTheEnablement : Prop :=
  ∀ (s : State) (count : BitVec 7) (interval : Byte), s.part.on = true → s.part.port.state ≠ .disabled →
    exec (.portDisable count interval) s = .next { s with part := { s.part with
      port := { s.part.port with
        state := .disabled, enablement := none, timer := none, scanAsked := false, interval := interval.toNat }
      engine := { s.part.engine with queue := [] }
      cat := { s.part.cat with queue := [], beginFirst := false } } }

/-- R144: a write to WAKE and a tick of the scan timer ask for a scan while the port is enabled and not HALTED and the device is past
MOUNTING; in DISABLED and HALTED WAKE is ignored. -/
def Obligations.WakeAndTickAskForAScan : Prop :=
  ∀ (s : State) (v : Reg), s.part.on = true →
    (s.part.port.live = true → s.part.device ≠ .mounting →
      exec (.wake v) s = .next { s with part := { s.part with port := { s.part.port with scanAsked := true } } } ∧
      ∀ n, s.part.port.timer = some n → exec .scanTimerTick s = .next { s with part := { s.part with port := { s.part.port with
        scanAsked := true, timer := if s.part.port.interval = 0 then none else some s.part.port.interval } } }) ∧
    (s.part.port.live = false → exec (.wake v) s = .next s)

/-- R158, R159: CAUSE reads as the pending set whatever the enables; a write to it removes the causes whose bit is written 1 and leaves
the others, and nothing else changes; ALERT# and NOTE# follow what is still pending. -/
def Obligations.CauseWriteClears : Prop :=
  ∀ (s : State) (v : Reg), s.part.on = true →
    (∀ i, (readRegister s.part .cause).getLsbD i = s.part.att.pending.getLsbD i) ∧
    ∃ t, exec (.causeClear v) s = .next t ∧
      t = { s with part := { s.part with att := { s.part.att with pending := t.part.att.pending } } } ∧
      (∀ i < 10, t.part.att.pending.getLsbD i = (s.part.att.pending.getLsbD i && !v.getLsbD i)) ∧
      (t.part.alertAsserted = true ↔ ∃ i < 10, s.part.att.pending.getLsbD i = true ∧ v.getLsbD i = false ∧
        s.part.att.enable.getLsbD i = true ∧ s.part.att.route.getLsbD i = true) ∧
      (t.part.noteAsserted = true ↔ ∃ i < 10, s.part.att.pending.getLsbD i = true ∧ v.getLsbD i = false ∧
        s.part.att.enable.getLsbD i = true ∧ s.part.att.route.getLsbD i = false)

/-- R157, R159: after RESET# every cause is enabled and causes 5 to 9 are URGENT; a 32-bit write to CAUSECFG replaces every enable and
route and leaves the pending set, bits of no cause reading as 0; the lines are driven from the new configuration; a narrower write is
ignored. -/
def Obligations.CausecfgWriteReplaces : Prop :=
  (∀ i < 10, State.reset.part.att.enable.getLsbD i = true ∧ State.reset.part.att.route.getLsbD i = decide (5 ≤ i)) ∧
  ∀ (s : State) (v : Reg), s.part.on = true →
    (∃ t, exec (.causecfgWrite v) s = .next t ∧
      t = { s with part := { s.part with att := { s.part.att with enable := t.part.att.enable, route := t.part.att.route } } } ∧
      (∀ i < 10, t.part.att.enable.getLsbD i = v.getLsbD i ∧ t.part.att.route.getLsbD i = v.getLsbD (16 + i)) ∧
      (∀ i, (readRegister t.part .causecfg).getLsbD i =
        ((decide (i < 10) || decide (16 ≤ i ∧ i < 26)) && v.getLsbD i)) ∧
      (t.part.alertAsserted = true ↔
        ∃ i < 10, s.part.att.pending.getLsbD i = true ∧ v.getLsbD i = true ∧ v.getLsbD (16 + i) = true) ∧
      (t.part.noteAsserted = true ↔
        ∃ i < 10, s.part.att.pending.getLsbD i = true ∧ v.getLsbD i = true ∧ v.getLsbD (16 + i) = false)) ∧
    ∀ width, width < 4 → exec (.registerWriteOther { offset := 0x1C, width := width, value := v }) s = .next s

/-- R139: a write narrower than 32 bits, a write to IDENT or EXSTAT, and any write while RESET# is low are ignored, and so is one wider
than 32 bits, by the model's choice (log 54); a 32-bit write at the offset of another register is that register's write. A read of any width inside the window returns the bytes addressed, each
register least significant byte first: the part code, the device and port states, the base, EXCTL, 0 for WAKE, the pending set, the
enables and routes. -/
def Obligations.RegisterWritesByOffset : Prop :=
  (∀ (s : State) (offset width : Nat), offset + width ≤ 32 →
    (readWindow s.part offset width).length = width ∧
    readWindow s.part offset width = ((leBytes 4 0x31600001 ++ leBytes 4 (s.part.device.value + 16 * s.part.port.state.value) ++
      leBytes 4 s.part.port.baseLo.toNat ++ leBytes 4 s.part.port.baseHi.toNat ++
      leBytes 4 ((if s.part.port.state = .disabled then 0 else 1) + s.part.port.count * 256 + s.part.port.interval * 65536) ++
      leBytes 4 0 ++ leBytes 4 s.part.att.pending.toNat ++
      leBytes 4 (s.part.att.enable.toNat + s.part.att.route.toNat * 65536)).drop offset).take width) ∧
  ∀ (s : State) (w : RegWrite),
    (s.part.on = false ∨ w.width ≠ 4 ∨ w.offset = 0x00 ∨ w.offset = 0x04 → exec (.registerWriteOther w) s = .next s) ∧
    (w.width = 4 →
      (w.offset = 0x08 → exec (.registerWriteOther w) s = exec (.exbaseWrite false w.value) s) ∧
      (w.offset = 0x0C → exec (.registerWriteOther w) s = exec (.exbaseWrite true w.value) s) ∧
      (w.offset = 0x10 → exec (.registerWriteOther w) s = exec (.exctlConfig w.value []) s) ∧
      (w.offset = 0x14 → exec (.registerWriteOther w) s = exec (.wake w.value) s) ∧
      (w.offset = 0x18 → exec (.registerWriteOther w) s = exec (.causeClear w.value) s) ∧
      (w.offset = 0x1C → exec (.registerWriteOther w) s = exec (.causecfgWrite w.value) s))

/-! ## Scanning, completions, the status page -/

/-- R145: a scan that finds a BLANK sheet at the cursor ends with the port RUNNING, and one that finds the cursor's bundle not fresh
ends with the port WAITING; nothing else changes but that the asked scan has been made. -/
def Obligations.ScanEndsAtBlankOrUnfresh : Prop :=
  ∀ s : State, s.part.on = true → s.part.port.live = true → s.part.device ≠ .mounting → s.part.port.scanAsked = true →
    s.part.pins.mastering = true → (∀ b < s.part.port.count, (s.part.port.bundle b).done ≠ 8) →
    ((s.part.port.bundle s.part.port.cursorB).fresh = true →
      s.part.port.sheetAddress s.part.port.cursorB s.part.port.cursorS + 256 ≤ 2 ^ 64 →
      s.part.hostRead (s.part.port.sheetAddress s.part.port.cursorB s.part.port.cursorS) 1 = [0x00#8] →
      exec (.scan []) s = .next { s with part := { s.part with port := { s.part.port with scanAsked := false, state := .running } } }) ∧
    ((s.part.port.bundle s.part.port.cursorB).fresh = false →
      exec (.scan []) s = .next { s with part := { s.part with port := { s.part.port with scanAsked := false, state := .waiting } } })

/-- R146, R77: a scan takes a POSTED CHECK or ADMIT for which the check queue has room: TAKEN is written and nothing else of host
memory, the request with the present key level and enablement joins the tail, the cursor advances (R147: past sheet 7 its bundle is no longer
fresh, and the cursor is in the next bundle, or in bundle 0 after the last); the scan ends at the BLANK sheet after it, or WAITING where
the bundle after it is not fresh. A catalogue request joins the catalogue queue so. With its queue full the sheet stays and the port is WAITING. R145, R148: a
sheet in another state is answered BAD_STATE, and a POSTED one without an owner BAD_KIND: the code and DONE are written, SHEET_DONE
raised (but not for a QUIET sheet answered BAD_KIND), the counts rise, the cursor advances in the same way. R155: a disable that
arrives during the TAKEN write leaves the sheet untaken, or taken and its request discarded from its queue, as the one or the other comes
first; RESET# that arrives then leaves it untaken, with every block as after RESET#. -/
def Obligations.ScanTakesAPostedCheck : Prop :=
  ∀ (s : State) (A : Nat), s.part.on = true → s.part.port.live = true → s.part.device ≠ .mounting → s.part.port.scanAsked = true →
    s.part.pins.mastering = true → (∀ b < s.part.port.count, (s.part.port.bundle b).done ≠ 8) →
    (s.part.port.bundle s.part.port.cursorB).fresh = true → s.part.port.cursorS ≤ 7 →
    A = s.part.port.sheetAddress s.part.port.cursorB s.part.port.cursorS →
    s.part.port.sheetAddress s.part.port.cursorB 7 + 256 ≤ 2 ^ 64 → Mem.wf hostBlank s.part.host = true →
    ((∀ kind code, kindOfCode code = some kind → s.part.hostRead A 2 = 0x01#8 :: leBytes 1 code →
      EndsAfterSheet s.part → kind.owner ≠ .lineController → ownerHasRoom s.part kind.owner = true →
      ∃ t, exec (.scan []) s = .next t ∧
        t.part.engine = (if kind.owner = .checkQueue then { s.part.engine with queue := s.part.engine.queue ++
          [requestOf (s.part.hostRead A 256) kind s.part.port.cursorB s.part.port.cursorS s.part.key.level
            (s.part.port.enablement.getD 0)] } else s.part.engine) ∧
        t.part.cat.queue = (if kind.owner = .checkQueue then s.part.cat.queue else s.part.cat.queue ++
          [requestOf (s.part.hostRead A 256) kind s.part.port.cursorB s.part.port.cursorS s.part.key.level
            (s.part.port.enablement.getD 0)]) ∧
        t.part.port = { s.part.port.pastSheet with scanAsked := false, state := s.part.port.stateAfterSheet } ∧
        t.part.hostRead A 1 = [0x02#8] ∧
        (∀ a, a ≠ A → Mem.read hostBlank t.part.host a = Mem.read hostBlank s.part.host a) ∧
        t.part.cat = { s.part.cat with
          queue := t.part.cat.queue
          beginFirst := s.part.cat.beginFirst || (decide (kind.owner = .catalogueQueue) && erasingBetween s.part.cat) } ∧
        t.part.line = s.part.line ∧ t.part.store = s.part.store ∧ t.part.att = s.part.att ∧ t.part.rules = s.part.rules ∧
        t.pending = s.pending) ∧
    (∀ kind code, kindOfCode code = some kind → s.part.hostRead A 2 = 0x01#8 :: leBytes 1 code →
      ((kind.owner = .checkQueue ∧ 12 ≤ s.part.engine.queue.length) ∨ (kind.owner = .catalogueQueue ∧ 4 ≤ s.part.cat.queue.length)) →
      exec (.scan []) s = .next { s with part := { s.part with port := { s.part.port with scanAsked := false, state := .waiting } } }) ∧
    (∀ (state : Byte) (code : Nat) (quiet : Bool), s.part.hostRead A 1 = [state] → EndsAfterSheet s.part →
      ((state ≠ 0x00#8 ∧ state ≠ 0x01#8 ∧ code = 0x17 ∧ quiet = false) ∨
        (state = 0x01#8 ∧ kindOfCode (leNat (s.part.hostRead (A + 1) 1)) = none ∧ code = 0x16 ∧
          quiet = (Mem.read hostBlank s.part.host (A + 3)).getLsbD 0)) →
      s.part.port.completions = [] → s.part.port.changed = [] → s.part.port.enablement ≠ none → s.part.port.cursorB < s.part.port.bundles.length →
      ∃ t, exec (.scan []) s = .next t ∧ t.part.hostRead A 1 = [0x03#8] ∧ t.part.hostRead (A + 6) 2 = leBytes 2 code ∧
        (∀ a, a ≠ A → ¬ (A + 6 ≤ a ∧ a < A + 8) → Mem.read hostBlank t.part.host a = Mem.read hostBlank s.part.host a) ∧
        (t.part.port.bundle s.part.port.cursorB).done = (s.part.port.bundle s.part.port.cursorB).done + 1 ∧
        (t.part.port.bundle s.part.port.cursorB).fresh = decide (s.part.port.cursorS < 7) ∧
        t.part.port.completed = min (s.part.port.completed + 1) 0xFFFFFFFF ∧ t.part.port.cursorB = s.part.port.pastSheet.cursorB ∧
        t.part.port.cursorS = s.part.port.pastSheet.cursorS ∧ t.part.port.state = s.part.port.stateAfterSheet ∧ t.part.port.completions = [] ∧
        t.part.att = (if quiet then s.part.att else { s.part.att with pending := s.part.att.pending ||| 1#10 }) ∧
        t.part.engine = s.part.engine ∧ t.part.cat = s.part.cat ∧ t.part.line = s.part.line ∧ t.part.store = s.part.store ∧
        t.part.rules = s.part.rules ∧ t.pending = s.pending) ∧
    (∀ (kind : Kind) (code : Nat) (interval : Byte) (first : Bool), kindOfCode code = some kind →
      s.part.hostRead A 2 = 0x01#8 :: leBytes 1 code → kind.owner ≠ .lineController → ownerHasRoom s.part kind.owner = true →
      ∃ t, exec (.scan [{ host := [], result := .ok }, { host := [], result := .ok },
          { host := [], result := .ok, event := some (.disable interval first) }]) s = .next t ∧
        t.part.port = { (if first then s.part.port else s.part.port.pastSheet) with
          scanAsked := false, state := .disabled, enablement := none, timer := none, interval := interval.toNat } ∧
        t.part.hostRead A 1 = [0x02#8] ∧ t.part.engine = { s.part.engine with queue := [] } ∧ t.part.cat.queue = [] ∧
        t.part.cat.entries = s.part.cat.entries ∧ t.part.line = s.part.line ∧ t.part.store = s.part.store ∧
        t.part.att = s.part.att ∧ t.pending = s.pending) ∧
    (∀ (kind : Kind) (code : Nat) (torn : TornOps), kindOfCode code = some kind →
      s.part.hostRead A 2 = 0x01#8 :: leBytes 1 code → ownerHasRoom s.part kind.owner = true →
      ∃ t, exec (.scan [{ host := [], result := .ok }, { host := [], result := .ok },
          { host := [], result := .ok, event := some (.reset torn) }]) s = .next t ∧
        t.part.on = false ∧ t.part.port = Port.reset ∧ t.part.engine = Engine.reset ∧ t.part.cat = CatUnit.reset ∧
        t.part.line = Line.reset ∧ t.part.att = Attention.reset ∧ t.part.device = .mounting ∧ t.part.hostRead A 1 = [0x02#8] ∧
        (∀ a, a ≠ A → Mem.read hostBlank t.part.host a = Mem.read hostBlank s.part.host a) ∧ t.pending = s.pending))

/-- R148: the oldest completion, its enablement not ended, is written: result area and findings where it has them, code, DONE; every
other byte of the sheet and every byte outside it keep what they held; the done count and the completed-sheet counter rise, SHEET_DONE
is raised unless QUIET. One whose enablement has ended is dropped. R150: at the eighth completion of a bundle the sheet just written
reads DONE, so nothing is wiped; a scan that finds a bundle with eight completions and every sheet COLLECTED, the cursor in it, writes
its sheets BLANK, makes it fresh with its done count 0, raises its wipe count and BUNDLE_WIPED, and finds the BLANK sheet; where the
bundle is not fresh, a disable that cuts the wipe short leaves the sheets written BLANK so, the others COLLECTED, the bundle not fresh and its counts unchanged (that the
eight state bytes are read by eight transfers before the writes is the model's choice, log 52). -/
def Obligations.CompletionIsWrittenOrDropped : Prop :=
  (∀ (s : State) (c : Completion) (cs : List Completion) (A : Nat), s.part.on = true →
    s.part.port.completions = c :: cs → A = s.part.port.sheetAddress c.bundle c.sheet →
    (s.part.port.enablement ≠ some c.enablement →
      exec (.completionWrite []) s = .next { s with part := { s.part with port := { s.part.port with completions := cs } } }) ∧
    (s.part.port.enablement = some c.enablement → s.part.pins.mastering = true → c.sheet < 8 →
      s.part.port.sheetAddress c.bundle 7 + 256 ≤ 2 ^ 64 →
      Mem.wf hostBlank s.part.host = true → s.part.port.changed = [] → (∀ area, c.result = some area → area.length = 64) →
      (∀ area, c.findings = some area → area.length = 128) → c.bundle < s.part.port.bundles.length →
      ∃ t, exec (.completionWrite []) s = .next t ∧ t.part.hostRead A 1 = [0x03#8] ∧
        t.part.hostRead (A + 6) 2 = leBytes 2 c.code.value ∧
        (∀ area, c.result = some area → t.part.hostRead (A + 64) 64 = area) ∧
        (∀ area, c.findings = some area → t.part.hostRead (A + 128) 128 = area) ∧
        (∀ a, a ≠ A → ¬ (A + 6 ≤ a ∧ a < A + 8) → (A + 64 ≤ a ∧ a < A + 128 → c.result = none) →
          (A + 128 ≤ a ∧ a < A + 256 → c.findings = none) →
          Mem.read hostBlank t.part.host a = Mem.read hostBlank s.part.host a) ∧
        (t.part.port.bundle c.bundle).done = (s.part.port.bundle c.bundle).done + 1 ∧
        (t.part.port.bundle c.bundle).wipes = (s.part.port.bundle c.bundle).wipes ∧
        (t.part.port.bundle c.bundle).fresh = (s.part.port.bundle c.bundle).fresh ∧
        t.part.port.completed = min (s.part.port.completed + 1) 0xFFFFFFFF ∧ t.part.port.completions = cs ∧
        t.part.att = (if c.quiet then s.part.att else { s.part.att with pending := s.part.att.pending ||| 1#10 }) ∧
        t.part.line = s.part.line ∧ t.part.cat = s.part.cat ∧ t.part.store = s.part.store ∧ t.part.engine = s.part.engine ∧
        t.pending = s.pending)) ∧
  ∀ (s : State) (B : Nat), s.part.on = true → s.part.port.live = true → s.part.device ≠ .mounting → s.part.port.scanAsked = true →
    s.part.pins.mastering = true → B = s.part.port.cursorB → B < s.part.port.count → B < s.part.port.bundles.length →
    s.part.port.cursorS < 8 → (s.part.port.bundle B).done = 8 → (∀ b < s.part.port.count, b ≠ B → (s.part.port.bundle b).done ≠ 8) →
    (∀ i < 8, s.part.hostRead (s.part.port.sheetAddress B i) 1 = [0x04#8]) → s.part.port.sheetAddress B 7 + 256 ≤ 2 ^ 64 →
    Mem.wf hostBlank s.part.host = true →
    (∃ t, exec (.scan []) s = .next t ∧ (∀ i < 8, t.part.hostRead (s.part.port.sheetAddress B i) 1 = [0x00#8]) ∧
      (∀ a, (∀ i < 8, a ≠ s.part.port.sheetAddress B i) → Mem.read hostBlank t.part.host a = Mem.read hostBlank s.part.host a) ∧
      t.part.port.bundle B = { fresh := true, done := 0, wipes := min ((s.part.port.bundle B).wipes + 1) 0xFFFFFFFF } ∧
      (∀ b, b ≠ B → t.part.port.bundle b = s.part.port.bundle b) ∧ t.part.port.state = .running ∧ t.part.port.scanAsked = false ∧
      t.part.port.cursorB = B ∧ t.part.port.cursorS = s.part.port.cursorS ∧
      t.part.att = { s.part.att with pending := s.part.att.pending ||| 2#10 } ∧ t.part.line = s.part.line ∧
      t.part.cat = s.part.cat ∧ t.part.store = s.part.store ∧ t.part.engine = s.part.engine ∧ t.pending = s.pending) ∧
    ∀ (k : Nat) (interval : Byte) (first : Bool), k < 8 → (k < 7 ∨ first = true) → (s.part.port.bundle B).fresh = false →
      ∃ t, exec (.scan (List.replicate (8 + k) { host := [], result := .ok } ++
          [{ host := [], result := .ok, event := some (.disable interval first) }])) s = .next t ∧
        (∀ i < 8, t.part.hostRead (s.part.port.sheetAddress B i) 1 = [if i ≤ k then 0x00#8 else 0x04#8]) ∧
        t.part.port = { s.part.port with
          scanAsked := false, state := .disabled, enablement := none, timer := none, interval := interval.toNat } ∧
        (t.part.port.bundle B).fresh = false ∧ (t.part.port.bundle B).done = 8 ∧
        t.part.att = s.part.att ∧ t.part.line = s.part.line ∧ t.part.store = s.part.store ∧ t.pending = s.pending

/-- R151: the gathered hand-overs are written as one update: an item that changed stands in the page, and the update count, raised by
one, after it. -/
def Obligations.StatusUpdateWritesTheItem : Prop :=
  ∀ (s : State) (i : StatusItem), s.part.on = true → s.part.port.live = true → s.part.pins.mastering = true →
    s.part.port.changed = [i] → s.part.port.base + 4096 ≤ 2 ^ 64 → i.offset + (s.part.port.copy.bytes i).length ≤ 4096 →
    Mem.wf hostBlank s.part.host = true →
    ∃ t, exec (.statusUpdate []) s = .next t ∧
      t.part.hostRead (s.part.port.base + i.offset) (s.part.port.copy.bytes i).length = s.part.port.copy.bytes i ∧
      t.part.hostRead s.part.port.base 4 = leBytes 4 ((s.part.port.updates + 1) % 2 ^ 32) ∧
      t.part.port = { s.part.port with updates := (s.part.port.updates + 1) % 2 ^ 32, changed := [] } ∧
      t.part.line = s.part.line ∧ t.part.cat = s.part.cat ∧ t.part.engine = s.part.engine ∧ t.part.store = s.part.store ∧
      t.part.att = s.part.att ∧ t.pending = s.pending

/-! ## The key switch and time -/

/-- R160: a change of the input starts the stability timer; when it runs out the debounced level takes the input's level, and KEY is
raised exactly when that is a change. -/
def Obligations.KeySwitchDebounce : Prop :=
  ∀ (s : State) (level : Bool), s.part.on = true →
    (level ≠ s.part.pins.keysw → exec (.keyswChange level) s = .next { s with part := { s.part with
      pins := { s.part.pins with keysw := level }, key := { s.part.key with running := true } } }) ∧
    (s.part.key.running = true → ∃ t, exec .keyswDebounceExpiry s = .next t ∧
      t.part.key = { level := s.part.pins.keysw, running := false } ∧
      t.part.att = (if s.part.pins.keysw = s.part.key.level then s.part.att
        else { s.part.att with pending := s.part.att.pending ||| (1#10 <<< 4) }) ∧
      t.part.line = s.part.line ∧ t.part.cat = s.part.cat ∧ t.part.engine = s.part.engine ∧ t.part.store = s.part.store ∧
      t.part.host = s.part.host ∧ t.pending = s.pending)

/-- R94: a second raises the timebase by one, up to FFFFFFFFh where it stays; the window remaining is handed to the port; nothing else
changes. -/
def Obligations.SecondsRise : Prop :=
  ∀ s : State, s.part.on = true → ∃ t, exec .secondsTick s = .next t ∧
    t.part.line = { s.part.line with seconds := min (s.part.line.seconds + 1) 0xFFFFFFFF } ∧
    t.part.port = { s.part.port with copy := t.part.port.copy, changed := t.part.port.changed } ∧
    t.part.port.copy.window = (match s.part.line.state, s.part.line.deadline with
      | .changeover, some d => d - min (s.part.line.seconds + 1) 0xFFFFFFFF
      | .settling, some d => d - min (s.part.line.seconds + 1) 0xFFFFFFFF
      | _, _ => 0) ∧
    t = { s with part := { s.part with line := t.part.line, port := t.part.port } }

/-- R98: when the deadline is reached in CHANGEOVER or SETTLING the line enters RUNNING in the target format, the deadline removed,
the FORMAT mark set, ageing restarted; every verdict and the epoch are kept; LAPSED and LINE_STATE are raised. -/
def Obligations.WindowExpiryEntersRunning : Prop :=
  ∀ (s : State) (d : Nat), s.part.on = true → (s.part.line.state = .changeover ∨ s.part.line.state = .settling) →
    s.part.line.deadline = some d → d ≤ s.part.line.seconds →
    ∃ t, exec .windowExpiry s = .next t ∧ t.part.line.state = .running ∧ t.part.line.active = s.part.line.target ∧
      t.part.line.target = none ∧ t.part.line.deadline = none ∧ t.part.line.formatMark = .marked ∧
      t.part.line.epoch = s.part.line.epoch ∧ t.part.isPending .lapsed = true ∧ t.part.isPending .lineState = true ∧
      t.part.cat.entries = s.part.cat.entries.map (fun e =>
        if e.verdict = .conform ∨ e.verdict = .tolerated then { e with second := s.part.line.seconds } else e) ∧
      t.part.store = s.part.store ∧ t.part.rules = s.part.rules ∧ t.part.engine = s.part.engine ∧ t.part.host = s.part.host ∧
      t.pending = s.pending

/-- R101: in RUNNING a CONFORM or TOLERATED verdict whose second plus the staleness limit has been reached becomes STALE with the
present second and epoch; no other entry changes. -/
def Obligations.VerdictGoesStale : Prop :=
  ∀ (s : State) (e : Entry), s.part.on = true → s.part.line.state = .running → e ∈ s.part.cat.entries →
    (e.verdict = .conform ∨ e.verdict = .tolerated) → e.second + s.part.line.params.staleness ≤ s.part.line.seconds →
    KeysDistinct s →
    ∃ t, exec (.stalenessExpiry e.key) s = .next t ∧
      t.part.cat.entries = s.part.cat.entries.map (fun x =>
        if x.key = e.key then { x with verdict := .stale, second := s.part.line.seconds, epoch := s.part.line.epoch } else x) ∧
      t.part.line.state = .running ∧ t.part.line.epoch = s.part.line.epoch ∧ t.part.store = s.part.store ∧
      t.part.engine = s.part.engine ∧ t.part.host = s.part.host ∧ t.pending = s.pending

/-! ## Line requests -/

/-- R95: OPEN_CHANGEOVER to a format in force, with the key on, from RUNNING or NO_FORMAT: the target set, F kept, the epoch raised,
every verdict UNCHECKED, the window clamped into 60 to 7200 s, LINE_STATE raised, OK at take. -/
def Obligations.OpenChangeoverOpens : Prop :=
  ∀ (s : State) (head : SheetHead) (target : Byte) (window : Reg), LineTurn s head → s.part.key.level = true →
    target.toNat ≤ 30 → (s.part.line.state = .running ∨ s.part.line.state = .noFormat) → s.part.line.epoch < 0xFFFFFFFE →
    (∃ e ∈ s.part.cat.entries, e.key.format = target.toNat ∧ e.current ≠ none) →
    ∃ t, exec (.openChangeover head target window) s = .next t ∧ t.part.line.state = .changeover ∧
      t.part.line.target = some target.toNat ∧ t.part.line.active = s.part.line.active ∧
      t.part.line.epoch = s.part.line.epoch + 1 ∧
      t.part.line.deadline = some (min (s.part.line.seconds + max 60 (min 7200 window.toNat)) 0xFFFFFFFF) ∧
      t.part.cat.entries = uncheckedAll s.part.cat.entries s.part.line.seconds (s.part.line.epoch + 1) ∧
      t.part.isPending .lineState = true ∧
      LineDone s t head [(64, [target]), (65, leBytes 1 s.part.line.state.value), (68, leBytes 4 (max 60 (min 7200 window.toNat))),
        (72, leBytes 4 (s.part.line.epoch + 1))] ∧
      t.part.store = s.part.store ∧ t.part.rules = s.part.rules ∧ t.part.engine = s.part.engine

/-- R96: CLOSE_CHANGEOVER in CHANGEOVER: with a required set not empty and every station passing the line runs in G, else it is
SETTLING with F, G and the deadline kept; the epoch and every verdict value are kept; LINE_STATE is raised. -/
def Obligations.CloseChangeoverCloses : Prop :=
  ∀ (s : State) (head : SheetHead) (G : Nat), LineTurn s head → s.part.line.state = .changeover → s.part.line.target = some G →
    ∃ t, exec (.closeChangeover head) s = .next t ∧ t.part.line.epoch = s.part.line.epoch ∧
      t.part.cat.entries.map Entry.verdict = s.part.cat.entries.map Entry.verdict ∧ t.part.isPending .lineState = true ∧
      t.part.store = s.part.store ∧ t.part.engine = s.part.engine ∧ t.pending = s.pending ∧
      (requiredSet s.part G ≠ [] ∧ (∀ x ∈ s.part.line.stations, x.state.passing = true) →
        t.part.line.state = .running ∧ t.part.line.active = some G ∧ t.part.line.target = none ∧ t.part.line.deadline = none ∧
        t.part.line.formatMark = .marked) ∧
      (requiredSet s.part G = [] ∨ (∃ x ∈ s.part.line.stations, x.state.passing = false) →
        t.part.line.state = .settling ∧ t.part.line.active = s.part.line.active ∧ t.part.line.target = some G ∧
        t.part.line.deadline = s.part.line.deadline ∧ t.part.line.formatMark = s.part.line.formatMark)

/-- R99: ABANDON_CHANGEOVER in CHANGEOVER or SETTLING: back to RUNNING in F, or to NO_FORMAT, the target and the deadline removed, the
epoch raised, every verdict UNCHECKED, LINE_STATE raised and LAPSED left as it was. -/
def Obligations.AbandonChangeoverReturns : Prop :=
  ∀ (s : State) (head : SheetHead), LineTurn s head → (s.part.line.state = .changeover ∨ s.part.line.state = .settling) →
    ∃ t, exec (.abandonChangeover head) s = .next t ∧
      t.part.line.state = (if s.part.line.active = none then .noFormat else .running) ∧
      t.part.line.active = s.part.line.active ∧ t.part.line.target = none ∧ t.part.line.deadline = none ∧
      t.part.line.epoch = s.part.line.epoch + 1 ∧
      t.part.cat.entries = uncheckedAll s.part.cat.entries s.part.line.seconds (s.part.line.epoch + 1) ∧
      t.part.isPending .lineState = true ∧ t.part.isPending .lapsed = s.part.isPending .lapsed ∧
      LineDone s t head [(64, leBytes 1 t.part.line.state.value), (68, leBytes 4 (s.part.line.epoch + 1))] ∧
      t.part.store = s.part.store ∧ t.part.engine = s.part.engine

/-- R88, R89: HOLD_OUT of a defined station sets its held-out flag and its mark, and its state is HELD, every verdict kept; RESTORE of
a held-out one clears the flag, sets the mark and returns the station's verdicts to UNCHECKED. -/
def Obligations.HoldOutAndRestore : Prop :=
  ∀ (s : State) (head : SheetHead) (n : Byte), LineTurn s head → s.part.key.level = true → n.toNat ≤ 15 →
    n.toNat < s.part.line.stations.length → (s.part.line.station n.toNat).defined = true →
    ((s.part.line.station n.toNat).heldOut = false → ∃ t, exec (.holdOut head n) s = .next t ∧
      (t.part.line.station n.toNat).heldOut = true ∧ (t.part.line.station n.toNat).mark = .marked ∧
      (t.part.line.station n.toNat).state = .held ∧ t.part.cat.entries = s.part.cat.entries ∧
      LineDone s t head [(64, [n]), (65, leBytes 1 (s.part.line.station n.toNat).state.value)] ∧
      t.part.store = s.part.store ∧ t.part.engine = s.part.engine) ∧
    ((s.part.line.station n.toNat).heldOut = true → ∃ t, exec (.restore head n) s = .next t ∧
      (t.part.line.station n.toNat).heldOut = false ∧ (t.part.line.station n.toNat).mark = .marked ∧
      t.part.cat.entries = s.part.cat.entries.map (fun e => if e.key.station = n.toNat then
        { e with verdict := .unchecked, second := s.part.line.seconds, epoch := s.part.line.epoch } else e) ∧
      LineDone s t head [(64, [n]), (65, leBytes 1 (t.part.line.station n.toNat).state.value),
        (66, leBytes 2 (s.part.cat.entries.countP fun e => decide (e.key.station = n.toNat)))] ∧
      t.part.store = s.part.store ∧ t.part.engine = s.part.engine)

/-! ## Catalogue requests -/

/-- R9, R12, R13: an ENROL whose tests pass begins: it waits for the read of its image, with nothing programmed or recorded. -/
def Obligations.EnrolBegins : Prop :=
  ∀ (s : State) (r : Request) (rest : List Request), RequestTurn s r rest → r.kind = .enrol → Admitted s r →
    keyInRange r.key = true → (s.part.line.station r.key.station).defined = true → r.enrolRuleSet ≤ 63 →
    (ruleSetAt s.part.rules r.enrolRuleSet).isLoaded = true → 2 ≤ r.length → r.length ≤ 16384 → r.length % 2 = 0 →
    r.address % 8 = 0 →
    (match findKey s.part.cat.entries r.key with
      | some e => e.counter < 0xFFFFFFFF
      | none => s.part.cat.entries.length < 1024) →
    ∃ t, exec .enrol s = .next t ∧ t.part.cat.await = some .hostRead ∧ t.part.cat.req = some r ∧ t.part.cat.queue = rest ∧
      t.part.cat.order = (s.part.line.station r.key.station).order ∧ t.part.cat.entries = s.part.cat.entries ∧
      t.part.store = s.part.store ∧ t.part.rules = s.part.rules ∧ t.part.host = s.part.host ∧
      t.part.port.completions = s.part.port.completions ∧ t.pending = s.pending

/-- R13, R113: the read of an ENROL's image ends, no BCD field is malformed and the image can be placed: its first page, filled up
with FFh, is programmed at the run's first page; the catalogue is unchanged. The image is what host memory holds at that moment, by the
model's choice (log 55). -/
def Obligations.EnrolImageIsPlaced : Prop :=
  ∀ (s : State) (host : List Host.Cell) (r : Request) (run : PageRun) (placed : Store) (image : List Byte), s.part.on = true →
    s.part.cat.await = some .hostRead → s.part.cat.req = some r → r.kind = .enrol →
    s.part.port.enablement = some r.enablement → s.part.pins.mastering = true → r.address + r.length ≤ 2 ^ 64 →
    image = Mem.readN hostBlank (Mem.apply hostBlank s.part.host host) r.address r.length →
    screenImage s.part.cat.order image (claimWalk (ruleSetAt s.part.rules r.enrolRuleSet).rules image.length).1 = none →
    placeRun s.part.store (pagesFor image.length) = (some run, placed) →
    ∃ t, exec (.enrolmentBufferReadDone host) s = .next t ∧ t.part.cat.await = some (.program run 0 false) ∧
      t.part.cat.buffer = image ∧ t.part.store.queue (bankOf run.unit) = s.part.store.queue (bankOf run.unit) ++
        [{ client := .catalogue
           op := .programPage run.unit run.first (image.take 512 ++ List.replicate (512 - image.length) 0xFF#8) }] ∧
      t.part.cat.entries = s.part.cat.entries ∧ t.part.rules = s.part.rules ∧
      t.part.port.completions = s.part.port.completions ∧ t.pending = s.pending

/-- R15, R16: a COMMIT or a DISCARD of a format with nothing staged ends OK with its counts 0 and no record, changing nothing else of
the catalogue. With n entries staged a
COMMIT asks for the slot of COMMIT_BEGIN, its group being COMMIT_BEGIN, one ENTRY record an entry as it will be, and COMMIT_END; a
DISCARD asks for the record of its first entry in ascending order: ENTRY without the staged generation where a current one is present,
else ENTRY_GONE. -/
def Obligations.CommitAndDiscardBegin : Prop :=
  ∀ (s : State) (r : Request) (rest : List Request) (u : Nat), RequestTurn s r rest → Admitted s r → r.format ≤ 31 →
    (r.kind = .commit → stagedOf s.part r.format = [] → ∃ t, exec .commit s = .next t ∧
      EndsRequest s t r rest .ok (resultArea [(64, leBytes 4 0)]) ∧ t.part.cat.entries = s.part.cat.entries ∧
      t.part.cat.nextSeq = s.part.cat.nextSeq) ∧
    (r.kind = .commit → stagedOf s.part r.format ≠ [] → RoomFor s.part u ((stagedOf s.part r.format).length + 2) →
      ∃ t, exec .commit s = .next t ∧
        BeginsRecord s t r rest u
          ([.commitBegin r.format (stagedOf s.part r.format).length] ++
            (stagedOf s.part r.format).map (fun e => .entry .change
              { key := e.key, ruleSet := e.ruleSet, counter := e.counter, staged := none, current := e.staged, previous := e.current }) ++
            [.commitEnd]) (.commit r.format)) ∧
    (r.kind = .discard → stagedOf s.part r.format = [] → ∃ t, exec .discard s = .next t ∧
      EndsRequest s t r rest .ok (resultArea [(64, leBytes 2 0), (66, leBytes 2 0)]) ∧ t.part.cat.entries = s.part.cat.entries ∧
      t.part.cat.nextSeq = s.part.cat.nextSeq) ∧
    (r.kind = .discard → KeysDistinct s → ∀ (e : Entry) (es : List Entry), stagedOf s.part r.format = e :: es →
      RoomFor s.part u (es.length + 1) → ∃ t, exec .discard s = .next t ∧
        BeginsRecord s t r rest u
          [if e.current = none then .entryGone e.key else .entry .change
            { key := e.key, ruleSet := e.ruleSet, counter := e.counter, staged := none, current := e.current, previous := e.previous }]
          (.discard e.key))

/-- R17, R18: REVERT of an entry with a previous generation asks for one ENTRY record with previous in current; RETIRE asks for one
ENTRY_GONE record; neither has changed the catalogue yet. -/
def Obligations.RevertAndRetireBegin : Prop :=
  ∀ (s : State) (r : Request) (rest : List Request) (u : Nat) (e : Entry), RequestTurn s r rest → Admitted s r →
    keyInRange r.key = true → findKey s.part.cat.entries r.key = some e → RoomFor s.part u 1 →
    (r.kind = .revert → e.previous ≠ none → ∃ t, exec .revert s = .next t ∧
      BeginsRecord s t r rest u [.entry .change
        { key := e.key, ruleSet := e.ruleSet, counter := e.counter, staged := e.staged, current := e.previous, previous := none }]
        (.revert r.key)) ∧
    (r.kind = .retire → ∃ t, exec .retire s = .next t ∧ BeginsRecord s t r rest u [.entryGone r.key] (.retire r.key))

/-- R36, R87, R102: the deletion of a set no entry names, a DEFINE, an UNDEFINE of a station no entry names, and a PARAM_SET each ask
for one record of the item as it will be; the staleness limit is clamped into 30 to 3600. -/
def Obligations.SetStationAndParameterRequestsBegin : Prop :=
  ∀ (s : State) (r : Request) (rest : List Request) (u : Nat), RequestTurn s r rest → Admitted s r → RoomFor s.part u 1 →
    (r.kind = .ruleLoad → r.loadCount = 0 → r.loadSet ≤ 63 → (ruleSetAt s.part.rules r.loadSet).image ≠ none →
      (∀ e ∈ s.part.cat.entries, e.ruleSet ≠ r.loadSet) → ∃ t, exec .ruleSetDelete s = .next t ∧
        BeginsRecord s t r rest u [.rulesetGone r.loadSet] (.ruleDelete r.loadSet)) ∧
    (r.kind = .stationDefine → r.defineStation ≤ 15 → r.defineAction = 1 → (r.defineOrder = 1 ∨ r.defineOrder = 2) →
      (∀ b ∈ r.defineName, 0x20 ≤ b.toNat ∧ b.toNat ≤ 0x7E) → ∃ t, exec .stationDefine s = .next t ∧
        BeginsRecord s t r rest u [.station r.defineStation
          { defined := true, order := if r.defineOrder = 1 then .big else .little, name := r.defineName
            heldOut := (s.part.line.station r.defineStation).defined && (s.part.line.station r.defineStation).heldOut }]
          .stationDefine) ∧
    (r.kind = .stationDefine → r.defineStation ≤ 15 → r.defineAction = 2 →
      (s.part.line.station r.defineStation).defined = true → (∀ e ∈ s.part.cat.entries, e.key.station ≠ r.defineStation) →
      ∃ t, exec .stationUndefine s = .next t ∧
        BeginsRecord s t r rest u [.station r.defineStation
          { defined := false, order := (s.part.line.station r.defineStation).order
            name := (s.part.line.station r.defineStation).name, heldOut := false }] .stationUndefine) ∧
    (r.kind = .paramSet → r.operatorAdmit ≤ 1 → r.overrideParam ≤ 1 → ∃ t, exec .paramSet s = .next t ∧
      BeginsRecord s t r rest u [.param
        { staleness := max 30 (min 3600 r.staleness), operatorAdmit := decide (r.operatorAdmit = 1)
          override := decide (r.overrideParam = 1) }] .paramSet)

/-- R10, R18, R73: when the ENTRY_GONE record of a RETIRE is complete, the entry is removed, each lane that set up against it has its
removal mark set, and the request ends OK with the number of generations dropped. R14, R2, R4: when the ENTRY record of an ENROL is
complete the new generation is staged under the counter's number, the counter raised, the rule set named; a key without an entry gets
one, its first generation number 1. R16: with its record a DISCARD drops the staged generation, and the entry where no other is left.
R17, R19: with its record a REVERT brings the previous generation back, the verdict UNCHECKED, the peaks empty, no damage. -/
def Obligations.RetireTakesEffect : Prop :=
  ∀ (s : State) (b : Bank) (u m num : Nat) (data : List Byte) (q : List BankJob) (r : Request) (e : Entry) (x : JournalRecord),
    s.part.on = true → s.part.store.queue b = { client := .catalogue, op := .programSlot u m data } :: q → s.part.cat.req = some r →
    s.part.cat.badWaiting = [] →
    (s.part.cat.await = some (.slot [.entryGone e.key] num (.retire e.key)) → s.part.cat.todo = [] →
      findKey s.part.cat.entries e.key = some e →
      ∃ t, exec (.slotProgramDone b .done) s = .next t ∧
        EndsRequest s t r s.part.cat.queue .ok (resultArea [(64, leBytes 1 e.generations.length)]) ∧
        t.part.cat.entries = s.part.cat.entries.filter (fun x => decide (x.uid ≠ e.uid)) ∧
        (∀ l, (∃ x, (s.part.engine.lane l).setup = some x ∧ x.entry = e.uid) → (t.part.engine.lane l).removed = true) ∧
        t.part.store.queue b = q) ∧
    (∀ (run : PageRun), s.part.cat.await = some (.slot [x] num .enrol) → s.part.cat.todo = [] → s.part.cat.run = some run →
      findKey s.part.cat.entries r.key = some e →
      ∃ t, exec (.slotProgramDone b .done) s = .next t ∧
        EndsRequest s t r s.part.cat.queue .ok (resultArea
          [(64, leBytes 4 e.counter), (68, leBytes 4 (crc32 s.part.cat.buffer)), (72, leBytes 1 run.pages), (74, leBytes 2 run.unit),
           (76, leBytes 4 ((e.staged.map Generation.number).getD 0)), (80, leBytes 2 s.part.cat.overruns)]) ∧
        t.part.cat.entries = s.part.cat.entries.map (fun y => if y.uid = e.uid then
          { y with
            staged := some { number := y.counter, unit := run.unit, first := run.first, pages := run.pages
                             length := s.part.cat.buffer.length, crc := crc32 s.part.cat.buffer }
            counter := y.counter + 1, ruleSet := r.enrolRuleSet } else y) ∧
        (e.staged = none → run.unit < s.part.store.units.length →
          (t.part.store.unit run.unit).live = (s.part.store.unit run.unit).live + run.pages)) ∧
    (∀ (run : PageRun), s.part.cat.await = some (.slot [x] num .enrol) → s.part.cat.todo = [] → s.part.cat.run = some run →
      findKey s.part.cat.entries r.key = none →
      ∃ t, exec (.slotProgramDone b .done) s = .next t ∧
        EndsRequest s t r s.part.cat.queue .ok (resultArea
          [(64, leBytes 4 1), (68, leBytes 4 (crc32 s.part.cat.buffer)), (72, leBytes 1 run.pages), (74, leBytes 2 run.unit),
           (76, leBytes 4 0), (80, leBytes 2 s.part.cat.overruns)]) ∧
        t.part.cat.entries = s.part.cat.entries ++
          [{ uid := s.part.cat.nextUid, key := r.key, counter := 2, ruleSet := r.enrolRuleSet
             staged := some { number := 1, unit := run.unit, first := run.first, pages := run.pages
                              length := s.part.cat.buffer.length, crc := crc32 s.part.cat.buffer }
             current := none, previous := none, damaged := false, verdict := .unchecked, second := s.part.line.seconds
             epoch := s.part.line.epoch, bandPeak := { usage := 0, rule := none, offset := 0 }
             trackPeak := { magnitude := 0, offset := 0 } }]) ∧
    (s.part.cat.await = some (.slot [x] num (.discard e.key)) → s.part.cat.todo = [.discardEnd] →
      findKey s.part.cat.entries e.key = some e →
      ∃ t, exec (.slotProgramDone b .done) s = .next t ∧
        EndsRequest s t r s.part.cat.queue .ok (resultArea [(64, leBytes 2 (s.part.cat.dropped + 1)),
          (66, leBytes 2 (if e.current = none then s.part.cat.ceased + 1 else s.part.cat.ceased))]) ∧
        t.part.cat.entries = (s.part.cat.entries.map fun y => if y.uid = e.uid then { y with staged := none } else y).filter
          (fun y => y.staged.isSome || y.current.isSome || y.previous.isSome)) ∧
    (∀ (g c : Generation), s.part.cat.await = some (.slot [x] num (.revert e.key)) → s.part.cat.todo = [] →
      findKey s.part.cat.entries e.key = some e → e.previous = some g → e.current = some c →
      ∃ t, exec (.slotProgramDone b .done) s = .next t ∧
        EndsRequest s t r s.part.cat.queue .ok (resultArea [(64, leBytes 4 g.number), (68, leBytes 4 c.number)]) ∧
        t.part.cat.entries = s.part.cat.entries.map (fun y => if y.uid = e.uid then
          { y with current := y.previous, previous := none, damaged := false, verdict := .unchecked, second := s.part.line.seconds
                   epoch := s.part.line.epoch, bandPeak := { usage := 0, rule := none, offset := 0 }
                   trackPeak := { magnitude := 0, offset := 0 } } else y))

/-- R15, R19: when COMMIT_END is complete every entry of the format with a staged generation has it in current, its current in
previous, no staged generation, no damage, the verdict UNCHECKED and empty peaks, all in one act; the others are unchanged. R35, R36:
with its record a RULE_LOAD puts its rules in the place of the set, and a deletion makes the set ABSENT; the rule count held before
that a RULE_LOAD reports is the recorded count where the set replaced is FAULTED, by the model's choice (DEDUCED, log 37; R35 gives 0
for an ABSENT set alone). R87: with its record a DEFINE
gives the place its order and name, the held-out flag of a defined station kept, and an UNDEFINE leaves it UNDEFINED; R102, R101: with
its record a PARAM_SET puts the parameters in force, and a verdict that has so fallen due is STALE. Each changes nothing else of its
kind, and the request ends OK with its result. -/
def Obligations.CommitTakesEffect : Prop :=
  ∀ (s : State) (b : Bank) (u m num f n : Nat) (data : List Byte) (q : List BankJob) (r : Request) (x : JournalRecord) (old : RuleSet),
    s.part.on = true → s.part.store.queue b = { client := .catalogue, op := .programSlot u m data } :: q →
    s.part.cat.req = some r → s.part.cat.todo = [] → s.part.cat.badWaiting = [] →
    (s.part.cat.await = some (.slot [.commitEnd] num (.commit f)) → (s.part.cat.entries.map Entry.uid).Nodup →
      ∃ t, exec (.slotProgramDone b .done) s = .next t ∧
        EndsRequest s t r s.part.cat.queue .ok (resultArea [(64, leBytes 4 (stagedOf s.part f).length)]) ∧
        t.part.cat.entries = s.part.cat.entries.map (fun e =>
          if e.key.format = f ∧ e.staged ≠ none then
            { e with staged := none, current := e.staged, previous := e.current, damaged := false, verdict := .unchecked
                     second := s.part.line.seconds, epoch := s.part.line.epoch
                     bandPeak := { usage := 0, rule := none, offset := 0 }, trackPeak := { magnitude := 0, offset := 0 } }
          else e)) ∧
    (∀ (run : PageRun), s.part.cat.await = some (.slot [x] num .ruleLoad) → s.part.cat.run = some run →
      old = ruleSetAt s.part.rules r.loadSet →
      ∃ t, exec (.slotProgramDone b .done) s = .next t ∧
        EndsRequest s t r s.part.cat.queue .ok (resultArea
          [(64, leBytes 1 r.loadCount), (65, leBytes 1 old.count), (66, leBytes 2 (rulesHeldBeside s.part.rules r.loadSet + r.loadCount)),
           (68, leBytes 4 (crc32 s.part.cat.buffer)), (72, leBytes 2 run.unit), (74, leBytes 1 run.pages)]) ∧
        (∀ k < s.part.rules.length, ruleSetAt t.part.rules k = if k = r.loadSet then
          .loaded { unit := run.unit, first := run.first, pages := run.pages, count := r.loadCount, crc := crc32 s.part.cat.buffer }
            (rulesOf s.part.cat.buffer r.loadCount) else ruleSetAt s.part.rules k) ∧
        t.part.cat.entries = s.part.cat.entries ∧ t.part.line = s.part.line) ∧
    (s.part.cat.await = some (.slot [x] num (.ruleDelete n)) → old = ruleSetAt s.part.rules n →
      ∃ t, exec (.slotProgramDone b .done) s = .next t ∧
        EndsRequest s t r s.part.cat.queue .ok
          (resultArea [(65, leBytes 1 old.count), (66, leBytes 2 (rulesHeldBeside s.part.rules n))]) ∧
        (∀ k < s.part.rules.length, ruleSetAt t.part.rules k = if k = n then .absent else ruleSetAt s.part.rules k) ∧
        t.part.cat.entries = s.part.cat.entries ∧ t.part.line = s.part.line) ∧
    (s.part.cat.await = some (.slot [x] num .stationDefine) → r.defineStation = n → n < s.part.line.stations.length →
      (r.defineOrder = 1 ∨ r.defineOrder = 2) →
      ∃ t, exec (.slotProgramDone b .done) s = .next t ∧
        EndsRequest s t r s.part.cat.queue .ok (resultArea
          [(64, leBytes 1 n), (65, leBytes 1 r.defineAction), (66, leBytes 1 (stationStateOf t.part n).value)]) ∧
        (t.part.line.station n).state = stationStateOf t.part n ∧
        (t.part.line.station n).image =
          { defined := true, order := if r.defineOrder = 1 then .big else .little, name := r.defineName
            heldOut := (s.part.line.station n).defined && (s.part.line.station n).heldOut } ∧
        (∀ k, k ≠ n → (t.part.line.station k).image = (s.part.line.station k).image) ∧ t.part.cat.entries = s.part.cat.entries ∧
        t.part.rules = s.part.rules ∧ t.part.line.params = s.part.line.params) ∧
    (s.part.cat.await = some (.slot [x] num .stationUndefine) → r.defineStation = n → n < s.part.line.stations.length →
      ∃ t, exec (.slotProgramDone b .done) s = .next t ∧
        EndsRequest s t r s.part.cat.queue .ok (resultArea
          [(64, leBytes 1 n), (65, leBytes 1 r.defineAction), (66, leBytes 1 10)]) ∧
        (t.part.line.station n).defined = false ∧ (t.part.line.station n).heldOut = false ∧
        (t.part.line.station n).state = .undefined ∧
        (∀ k, k ≠ n → (t.part.line.station k).image = (s.part.line.station k).image) ∧ t.part.cat.entries = s.part.cat.entries ∧
        t.part.rules = s.part.rules ∧ t.part.line.params = s.part.line.params) ∧
    (∀ (ps : Params), s.part.cat.await = some (.slot [x] num .paramSet) →
      ps = { staleness := max 30 (min 3600 r.staleness), operatorAdmit := decide (r.operatorAdmit = 1)
             override := decide (r.overrideParam = 1) } →
      ∃ t, exec (.slotProgramDone b .done) s = .next t ∧
        EndsRequest s t r s.part.cat.queue .ok (resultArea
          [(64, leBytes 4 ps.staleness), (68, leBytes 1 (if ps.operatorAdmit then 1 else 0)),
           (69, leBytes 1 (if ps.override then 1 else 0)), (70, leBytes 1 (if ps.staleness = r.staleness then 0 else 1))]) ∧
        t.part.line.params = ps ∧ t.part.line.stations.map Station.image = s.part.line.stations.map Station.image ∧
        t.part.cat.entries = s.part.cat.entries.map (fun e =>
          if s.part.line.state = .running ∧ (e.verdict = .conform ∨ e.verdict = .tolerated) ∧
              min (e.second + ps.staleness) 0xFFFFFFFF ≤ s.part.line.seconds then
            { e with verdict := .stale, second := s.part.line.seconds, epoch := s.part.line.epoch } else e) ∧
        t.part.rules = s.part.rules)

/-- R128, R127: a slot program that fails enters its unit in the bad-unit list, and its record, whatever others follow it in its group,
is asked for again, with the same number, in the first slot of the next good unit of the ring; where that unit holds programmed slots and
some good unit has free slots, its erase is asked for first (DEDUCED, log 20). With no free slot left in a good unit the journal is full:
an ENROL ends STORE_FAULT with nothing changed, the cause raised and the number given back (its result area of zeros is the model's
choice, log 47). -/
def Obligations.FailedSlotIsWrittenAgain : Prop :=
  (∀ (s : State) (b : Bank) (u m v num : Nat) (data left : List Byte) (q : List BankJob) (x : JournalRecord) (xs : List JournalRecord) (w : Writer),
    s.part.on = true → s.part.store.queue b = { client := .catalogue, op := .programSlot u m data } :: q →
    s.part.cat.await = some (.slot (x :: xs) num w) → s.part.cat.writeUnit = some u → u < s.part.store.units.length →
    nextGood ((s.part.store.setQueue b q).modify u fun y => { y with bad := true }) u = some v → u ≠ v →
    (s.part.store.unit v).slots = 0 ∨
      (∃ f ∈ goodRecords s.part.store, f ≠ u ∧ (s.part.store.unit f).slots < Config.slotsPerUnit) →
    ∃ t, exec (.slotProgramDone b (.failed left)) s = .next t ∧ (t.part.store.unit u).bad = true ∧
      t.part.cat.badWaiting = s.part.cat.badWaiting ++ [u] ∧
      (if (s.part.store.unit v).slots = 0 then
        t.part.cat.await = some (.slot (x :: xs) num w) ∧
        (t.part.store.queue (bankOf v)).getLast? = some { client := .catalogue, op := .programSlot v 0 (slotEncode num x) }
      else
        t.part.cat.await = some (.ringErase (x :: xs) num w true) ∧
        (t.part.store.queue (bankOf v)).getLast? = some { client := .catalogue, op := .eraseUnit v }) ∧
      t.part.cat.nextSeq = s.part.cat.nextSeq ∧ t.part.cat.entries = s.part.cat.entries ∧ t.pending = s.pending) ∧
  ∀ (s : State) (b : Bank) (u m num : Nat) (data left : List Byte) (q : List BankJob) (x : JournalRecord) (r : Request),
    s.part.on = true → s.part.store.queue b = { client := .catalogue, op := .programSlot u m data } :: q →
    s.part.cat.await = some (.slot [x] num .enrol) → s.part.cat.writeUnit = some u → u < s.part.store.units.length →
    s.part.cat.req = some r → (∀ f ∈ goodRecords s.part.store, f ≠ u → Config.slotsPerUnit ≤ (s.part.store.unit f).slots) →
    ∃ t, exec (.slotProgramDone b (.failed left)) s = .next t ∧ (t.part.store.unit u).bad = true ∧
      EndsRequest s t r s.part.cat.queue .storeFault emptyResult ∧ t.part.isPending .storeFault = true ∧
      t.part.cat.nextSeq = num ∧ t.part.cat.entries = s.part.cat.entries ∧ t.part.rules = s.part.rules ∧ t.part.line = s.part.line ∧
      t.part.host = s.part.host

/-- R20: READ_BASELINE of a generation present, with room for it, pins the unit that holds it and asks for its first page. -/
def Obligations.ReadBaselineBegins : Prop :=
  ∀ (s : State) (r : Request) (rest : List Request) (e : Entry) (g : Generation), RequestTurn s r rest →
    r.kind = .readBaseline → s.part.device = .ready → (r.origin = 1#8 ∨ r.origin = 2#8) → keyInRange r.key = true →
    r.address % 8 = 0 → findKey s.part.cat.entries r.key = some e →
    ((r.generation = 1 ∧ e.staged = some g) ∨ (r.generation = 2 ∧ e.current = some g) ∨ (r.generation = 3 ∧ e.previous = some g)) →
    g.length ≤ r.capacity → g.unit < s.part.store.units.length →
    ∃ t, exec .readBaseline s = .next t ∧ t.part.cat.pin = some g.unit ∧
      (t.part.store.unit g.unit).readers = (s.part.store.unit g.unit).readers + 1 ∧ t.part.cat.await = some (.readBack 0) ∧
      t.part.store.queue (bankOf g.unit) = s.part.store.queue (bankOf g.unit) ++
        [{ client := .catalogue, op := .readPage g.unit g.first }] ∧
      t.part.cat.queue = rest ∧ t.part.cat.entries = s.part.cat.entries ∧ t.part.host = s.part.host ∧ t.part.rules = s.part.rules ∧
      t.pending = s.pending

/-- R21: LIST writes one record for each match after the skip count, in ascending order, up to its capacity, and ends OK with the
records written and the matches; it changes no entry, and in UNFORMATTED there are none. Where other events come between its writes it
goes on with the next record, each record showing its entry as it is when it is written. -/
def Obligations.ListWritesTheMatches : Prop :=
  (∀ (s : State) (r : Request) (rest : List Request) (out : List Entry), RequestTurn s r rest → r.kind = .list →
    r.originValid = true → (r.listStation ≤ 15 ∨ r.listStation = 0xFF) → (r.listBlock ≤ 63 ∨ r.listBlock = 0xFF) →
    (r.listFormat ≤ 31 ∨ r.listFormat = 0xFF) → r.listSkip ≤ 1023 → r.listCapacity ≤ 1024 → r.address % 8 = 0 →
    s.part.port.enablement = some r.enablement → s.part.pins.mastering = true → Mem.wf hostBlank s.part.host = true →
    (s.part.device = .ready → out = ((listMatches s.part r).drop r.listSkip).take r.listCapacity →
      r.address + 64 * out.length ≤ 2 ^ 64 → ∃ t, exec (.list none) s = .next t ∧
        EndsRequest s t r rest .ok (resultArea [(64, leBytes 4 out.length), (68, leBytes 4 (listMatches s.part r).length)]) ∧
        t.part.hostRead r.address (64 * out.length) = out.flatMap listingRecord ∧
        (∀ a, a < r.address ∨ r.address + 64 * out.length ≤ a →
          Mem.read hostBlank t.part.host a = Mem.read hostBlank s.part.host a) ∧
        t.part.cat.entries = s.part.cat.entries) ∧
    (s.part.device = .ready → out = ((listMatches s.part r).drop r.listSkip).take r.listCapacity →
      r.address + 64 * out.length ≤ 2 ^ 64 → ∀ k < out.length, ∃ t, exec (.list (some k)) s = .next t ∧
        t.part.cat.await = some (.listing k) ∧ t.part.cat.req = some r ∧ t.part.cat.queue = rest ∧
        t.part.hostRead r.address (64 * k) = (out.take k).flatMap listingRecord ∧
        (∀ a, a < r.address ∨ r.address + 64 * k ≤ a →
          Mem.read hostBlank t.part.host a = Mem.read hostBlank s.part.host a) ∧
        t.part.cat.entries = s.part.cat.entries ∧ t.part.port.completions = s.part.port.completions ∧ t.pending = s.pending) ∧
    (s.part.device = .unformatted → ∃ t, exec (.list none) s = .next t ∧
      EndsRequest s t r rest .ok (resultArea [(64, leBytes 4 0), (68, leBytes 4 0)]) ∧ t.part.host = s.part.host ∧
      t.part.cat.entries = s.part.cat.entries)) ∧
  ∀ (s : State) (r : Request) (out : List Entry) (i : Nat), s.part.on = true → s.part.cat.await = some (.listing i) →
    s.part.cat.req = some r → s.part.device = .ready → s.part.cat.todo = [] → s.part.port.enablement = some r.enablement →
    s.part.pins.mastering = true → Mem.wf hostBlank s.part.host = true →
    out = ((listMatches s.part r).drop r.listSkip).take r.listCapacity → i ≤ out.length → r.address + 64 * out.length ≤ 2 ^ 64 →
    ∃ t, exec (.list none) s = .next t ∧
      EndsRequest s t r s.part.cat.queue .ok
        (resultArea [(64, leBytes 4 out.length), (68, leBytes 4 (listMatches s.part r).length)]) ∧
      t.part.hostRead (r.address + 64 * i) (64 * (out.length - i)) = (out.drop i).flatMap listingRecord ∧
      (∀ a, a < r.address + 64 * i ∨ r.address + 64 * out.length ≤ a →
        Mem.read hostBlank t.part.host a = Mem.read hostBlank s.part.host a) ∧
      t.part.cat.entries = s.part.cat.entries

/-- R22: CLEAR_PEAKS empties the peaks of the entry with its key, or with ALL of every entry, and nothing else of any entry; it ends OK
with their number. -/
def Obligations.ClearPeaksEmptiesPeaks : Prop :=
  ∀ (s : State) (r : Request) (rest : List Request) (e : Entry), RequestTurn s r rest → r.kind = .clearPeaks →
    s.part.device = .ready → r.origin = 1#8 → KeysDistinct s →
    (r.peaksChoice = 0 → keyInRange r.peaksKey = true → e ∈ s.part.cat.entries → e.key = r.peaksKey →
      ∃ t, exec .clearPeaks s = .next t ∧ EndsRequest s t r rest .ok (resultArea [(64, leBytes 2 1)]) ∧
        t.part.cat.entries = s.part.cat.entries.map (fun x => if x.key = r.peaksKey then
          { x with bandPeak := { usage := 0, rule := none, offset := 0 }, trackPeak := { magnitude := 0, offset := 0 } } else x)) ∧
    (r.peaksChoice = 1 → ∃ t, exec .clearPeaks s = .next t ∧
      EndsRequest s t r rest .ok (resultArea [(64, leBytes 2 s.part.cat.entries.length)]) ∧
      t.part.cat.entries = s.part.cat.entries.map (fun x =>
        { x with bandPeak := { usage := 0, rule := none, offset := 0 }, trackPeak := { magnitude := 0, offset := 0 } }))

/-- R32, R34: a RULE_LOAD with a count of 1 to 128 whose total stays within 512 begins: it waits for the read of its array; over 512 it
ends RULES_FULL with T, and Rule Memory, the catalogue, the line, the causes, the flash and host memory stay. -/
def Obligations.RuleLoadBegins : Prop :=
  ∀ (s : State) (r : Request) (rest : List Request) (T : Nat), RequestTurn s r rest → r.kind = .ruleLoad → Admitted s r →
    r.loadSet ≤ 63 → 1 ≤ r.loadCount → r.loadCount ≤ 128 → r.address % 8 = 0 → T = rulesHeldBeside s.part.rules r.loadSet →
    (T + r.loadCount ≤ 512 → ∃ t, exec .ruleLoad s = .next t ∧ t.part.cat.await = some .hostRead ∧ t.part.cat.req = some r ∧
      t.part.cat.queue = rest ∧ t.part.rules = s.part.rules ∧ t.part.cat.entries = s.part.cat.entries ∧
      t.part.store = s.part.store ∧ t.part.host = s.part.host ∧ t.pending = s.pending) ∧
    (512 < T + r.loadCount → ∃ t, exec .ruleLoad s = .next t ∧
      EndsRequest s t r rest .rulesFull (resultArea [(66, leBytes 2 T)]) ∧ t.part.rules = s.part.rules ∧
      t.part.cat.entries = s.part.cat.entries ∧ t.part.cat.nextSeq = s.part.cat.nextSeq ∧ t.part.line = s.part.line ∧
      t.part.att = s.part.att ∧ t.part.engine = s.part.engine ∧ t.part.store.flash = s.part.store.flash ∧
      t.part.host = s.part.host)

/-- R137, R92, R103: FORMAT_STORE with the Check Engine idle enters FORMATTING: the line UNREADY, the window stopped, CONFORM
deasserted with CONFORM_LOST where it was asserted, the run flag clear, the epoch kept; it waits for its first store operation. R138:
in a store with no programmed page that operation is the slot program of SNAP_BEGIN, carrying the record area taken, in the first good
record unit. With the Check Engine busy it ends BUSY, and the device, the line, the catalogue, Rule Memory, the causes, the flash and
host memory stay. -/
def Obligations.FormatStoreBegins : Prop :=
  ∀ (s : State) (r : Request) (rest : List Request) (R v : Nat), RequestTurn s r rest → r.kind = .formatStore →
    (s.part.device = .ready ∨ s.part.device = .unformatted) → r.origin = 1#8 → r.keyOn = true →
    (s.part.engine.busy = false → (∃ u < 1024, u ∉ s.part.store.fuses ∧ 0 < (s.part.store.unit u).pages) →
      ∃ t, exec .formatStore s = .next t ∧ t.part.device = .formatting ∧ t.part.line.state = .unready ∧
        t.part.line.deadline = none ∧ t.part.line.conform = false ∧ t.part.line.epoch = s.part.line.epoch ∧
        (s.part.line.conform = true → t.part.isPending .conformLost = true) ∧ t.part.store.runFlag = false ∧
        (∃ u more, t.part.cat.await = some (.erase u more .formatting)) ∧ t.part.cat.queue = rest ∧ t.part.cat.req = some r ∧
        t.part.host = s.part.host ∧ t.pending = s.pending) ∧
    (s.part.engine.busy = false → s.part.store.units.length = 1024 →
      (∀ u < 1024, u ∉ s.part.store.fuses → (s.part.store.unit u).pages = 0 ∧ (s.part.store.unit u).slots = 0) →
      R = (if r.recordArea = 0 then 32 else max 24 (min 64 r.recordArea)) → v < R → v ∉ s.part.store.fuses →
      (∀ w < v, w ∈ s.part.store.fuses) → s.part.cat.nextSeq ≤ top32 →
      ∃ t, exec .formatStore s = .next t ∧ t.part.device = .formatting ∧ t.part.line.state = .unready ∧
        t.part.line.deadline = none ∧ t.part.line.conform = false ∧ t.part.line.epoch = s.part.line.epoch ∧
        t.part.store.recordSize = some R ∧ t.part.cat.await = some (.slot [.snapBegin R] s.part.cat.nextSeq .snapshotPart) ∧
        (t.part.store.queue (bankOf v)).getLast? =
          some { client := .catalogue, op := .programSlot v 0 (slotEncode s.part.cat.nextSeq (.snapBegin R)) } ∧
        (∀ u < 1024, (t.part.store.unit u).bad = decide (u ∈ s.part.store.fuses)) ∧ t.part.cat.queue = rest ∧
        t.part.cat.req = some r ∧ t.part.store.flash = s.part.store.flash ∧ t.part.host = s.part.host ∧ t.pending = s.pending) ∧
    (s.part.engine.busy = true → ∃ t, exec .formatStore s = .next t ∧ EndsRequest s t r rest .busy emptyResult ∧
      t.part.device = s.part.device ∧ t.part.line = s.part.line ∧ t.part.cat.entries = s.part.cat.entries ∧
      t.part.cat.nextSeq = s.part.cat.nextSeq ∧ t.part.rules = s.part.rules ∧ t.part.att = s.part.att ∧
      t.part.engine = s.part.engine ∧ t.part.store.flash = s.part.store.flash ∧ t.part.host = s.part.host)

/-! ## The Catalogue Unit's own work -/

/-- R100, R116, R130: between requests the record of the first marked station is asked for as the place stands (the first in ascending
number, by the model's choice, log 48); the lowest pending unit without a reader is erased; a snapshot begins with SNAP_BEGIN carrying R. -/
def Obligations.OwnWorkBegins : Prop :=
  ∀ (s : State) (n u R : Nat) (us : List Nat), s.part.on = true →
    (cuTurn s.part = .marks → n < s.part.line.stations.length → (s.part.line.station n).mark ≠ .clear →
      (∀ k < n, (s.part.line.station k).mark = .clear) → RoomFor s.part u 1 →
      ∃ t, exec .persistenceMarkWrite s = .next t ∧ t.part.cat.work = .marks ∧
        t.part.cat.await = some (.slot [.station n
          { defined := (s.part.line.station n).defined, order := (s.part.line.station n).order
            name := (s.part.line.station n).name, heldOut := (s.part.line.station n).heldOut }] s.part.cat.nextSeq (.stationMark n)) ∧
        t.part.cat.entries = s.part.cat.entries ∧ t.part.host = s.part.host ∧ t.pending = s.pending) ∧
    (cuTurn s.part = .erases → erasable s.part.store = u :: us → (s.part.store.unit u).live = 0 →
      s.part.cat.beginFirst = false →
      ∃ t, exec .erasePendingUnits s = .next t ∧ t.part.cat.work = .erases ∧ t.part.cat.await = some (.erase u us .between) ∧
        t.part.store.queue (bankOf u) = s.part.store.queue (bankOf u) ++ [{ client := .catalogue, op := .eraseUnit u }] ∧
        t.part.cat.entries = s.part.cat.entries ∧ t.part.host = s.part.host ∧ t.pending = s.pending) ∧
    (cuTurn s.part = .snapshot → s.part.store.recordSize = some R → slotPlace s.part.store s.part.cat.writeUnit false = .here u →
      s.part.cat.nextSeq ≤ top32 →
      ∃ t, exec .snapshot s = .next t ∧ t.part.cat.work = .snapshot ∧
        t.part.cat.await = some (.slot [.snapBegin R] s.part.cat.nextSeq .snapshotPart) ∧
        t.part.store = s.part.store.ask .catalogue
          (.programSlot u (s.part.store.unit u).slots (slotEncode s.part.cat.nextSeq (.snapBegin R))) ∧
        t.part.cat.entries = s.part.cat.entries ∧ t.part.host = s.part.host ∧ t.pending = s.pending)

/-- R118, R119: a reclaim step whose chosen unit is FULL with live pages, and whose image can be placed, asks for the first page of the
image of lowest first page; no reference has changed. -/
def Obligations.ReclaimStepReadsTheImage : Prop :=
  ∀ (s : State) (u : Nat) (ref : ImageRef) (src span : ImageSpan) (run : PageRun) (placed : Store), s.part.on = true →
    cuTurn s.part = .reclaim → pickUnit 1025 s.part.store = (some u, s.part.store) → (s.part.store.unit u).live ≠ 0 →
    s.part.store.openUnit ≠ some u → imageIn s.part u 0 = some (ref, span) → spanOf s.part ref = some src →
    placeRun s.part.store src.run.pages = (some run, placed) →
    ∃ t, exec .reclaimStep s = .next t ∧ t.part.cat.work = .reclaim ∧
      t.part.cat.await = some (.moveRead { ref := ref, src := src, target := run, second := false, why := .step } 0) ∧
      t.part.store.queue (bankOf src.run.unit) = s.part.store.queue (bankOf src.run.unit) ++
        [{ client := .catalogue, op := .readPage src.run.unit src.run.first }] ∧
      t.part.cat.entries = s.part.cat.entries ∧ t.part.rules = s.part.rules ∧ t.part.host = s.part.host ∧ t.pending = s.pending

/-- R5: the oldest report is taken; the damaged flag of its entry is set exactly where the generation reported is still current. -/
def Obligations.ReportIsTaken : Prop :=
  ∀ (s : State) (d : DamageReport) (ds : List DamageReport), s.part.on = true → s.part.cat.reports = d :: ds →
    exec .damagedReport s = .next { s with part := { s.part with cat := { s.part.cat with
      reports := ds
      entries := s.part.cat.entries.map fun e =>
        { e with damaged := e.damaged || (decide (e.uid = d.uid) && decide (e.current.map Generation.number = some d.number)) } } } }

/-! ## The Check Engine and the banks -/

/-- R63 to R66: a lane takes the head CHECK or ADMIT, Lane A when both are IDLE, Lane B where it alone is; when its tests pass it notes the entry's current
generation and the epoch, pins the unit, copies the rules, reads the byte order and enters CAPTURING. -/
def Obligations.LaneSetsUp : Prop :=
  ∀ (s : State) (l : Lane) (r : Request) (rest : List Request) (f : Nat) (e : Entry) (g : Generation), s.part.on = true →
    s.part.device = .ready → s.part.engine.queue = r :: rest → (s.part.engine.lane l).state = .idle →
    (l = .b → s.part.engine.laneA.state ≠ .idle) →
    ((r.kind = .check ∧ r.origin = 1#8 ∧ (r.selector = 0xFF ∨ r.selector ≤ 31)) ∨ (r.kind = .admission ∧ r.originValid = true)) →
    r.station ≤ 15 → r.block ≤ 63 → 2 ≤ r.length → r.length ≤ 16384 → r.length % 2 = 0 → r.address % 8 = 0 →
    (s.part.line.station r.station).defined = true → resolvedFormat s.part r = some f →
    lookup s.part r.station r.block f = some (e, g) → e.damaged = false →
    (ruleSetAt s.part.rules e.ruleSet).isFaulted = false → g.unit < s.part.store.units.length →
    ∃ t, exec (if r.kind = .check then .check else .admission) s = .next t ∧ t.part.engine.queue = rest ∧
      (∀ k, k ≠ l → t.part.engine.lane k = s.part.engine.lane k) ∧
      t.part.engine.lane l = { LaneRegs.reset with
        state := .capturing, req := some r
        setup := some { entry := e.uid, key := e.key, gen := g, resolved := f, epoch := s.part.line.epoch }
        rules := (ruleSetAt s.part.rules e.ruleSet).rules, order := (s.part.line.station r.station).order, pin := some g.unit } ∧
      (t.part.store.unit g.unit).readers = (s.part.store.unit g.unit).readers + 1 ∧ t.part.cat = s.part.cat ∧
      t.part.line = s.part.line ∧ t.part.rules = s.part.rules ∧ t.part.host = s.part.host ∧ t.pending = s.pending

/-- R67, R59, R68: the last captured byte arrives: the image of the request's length from its address is in the lane's buffer with its
CRC, the lane enters READING and asks for the first page of the noted generation. The bytes are those that host memory holds at that
moment, by the model's choice (log 55). -/
def Obligations.CaptureCompletes : Prop :=
  ∀ (s : State) (l : Lane) (host : List Host.Cell) (r : Request) (x : LaneSetup) (image : List Byte), s.part.on = true →
    (s.part.engine.lane l).state = .capturing → (s.part.engine.lane l).req = some r → (s.part.engine.lane l).setup = some x →
    s.part.port.enablement = some r.enablement → s.part.pins.mastering = true → r.address + r.length ≤ 2 ^ 64 →
    image = Mem.readN hostBlank (Mem.apply hostBlank s.part.host host) r.address r.length →
    ∃ t, exec (.captureComplete l host) s = .next t ∧
      t.part.engine.lane l = { s.part.engine.lane l with state := .reading, capture := image, captureCrc := crc32 image } ∧
      t.part.store = s.part.store.ask (.lane l) (.readPage x.gen.unit x.gen.first) ∧ t.part.cat = s.part.cat ∧
      t.part.line = s.part.line ∧ t.part.att = s.part.att ∧ t.part.port = s.part.port ∧ t.pending = s.pending

/-- R68, R60, R70, R61: the last page of an ACTIVE CHECK's baseline arrives readable, the CRC agrees, and the three conditions of R70
hold: the entry takes the verdict of the comparison with the present second and epoch and the greater band and track peaks; no other
entry changes, but for its second where the recording ends SETTLING (R97, R101); the CHECK ends OK with the measures and the findings of
the comparison (R58), and the lane is IDLE. -/
def Obligations.LastPageRecordsTheVerdict : Prop :=
  ∀ (s : State) (b : Bank) (l : Lane) (q : List BankJob) (errors : Nat) (r : Request) (x : LaneSetup) (base : List Byte)
    (res : Tally × Nat), s.part.on = true →
    s.part.store.queue b = { client := .lane l, op := .readPage x.gen.unit (x.gen.first + (s.part.engine.lane l).pagesRead) } :: q →
    (s.part.engine.lane l).state = .reading → (s.part.engine.lane l).req = some r → (s.part.engine.lane l).setup = some x →
    r.kind = .check → r.selector = 0xFF → errors ≤ 8 → (s.part.engine.lane l).pagesRead + 1 = x.gen.pages →
    base = ((s.part.engine.lane l).baseline ++
      s.part.store.pageData x.gen.unit (x.gen.first + (s.part.engine.lane l).pagesRead)).take x.gen.length →
    crc32 base = x.gen.crc →
    res = compareImages (s.part.engine.lane l).rules (s.part.engine.lane l).order base (s.part.engine.lane l).capture →
    (s.part.engine.lane l).removed = false → s.part.line.epoch = x.epoch →
    (∃ e ∈ s.part.cat.entries, findUid s.part.cat.entries x.entry = some e ∧
      e.current.map Generation.number = some x.gen.number) →
    ∃ t, exec (.pageReadDone b errors) s = .next t ∧ (t.part.engine.lane l).state = .idle ∧
      (∀ e' ∈ t.part.cat.entries, e'.uid = x.entry →
        e'.verdict = res.1.verdict ∧ e'.second = s.part.line.seconds ∧ e'.epoch = s.part.line.epoch) ∧
      t.part.cat.entries.map (fun e => { e with second := 0 }) = s.part.cat.entries.map (fun e =>
        if e.uid = x.entry then
          { e with
            second := 0, verdict := res.1.verdict, epoch := s.part.line.epoch
            bandPeak := if e.bandPeak.usage < res.1.usage then
              { usage := res.1.usage, rule := res.1.usageRule, offset := res.1.usageAt } else e.bandPeak
            trackPeak := if e.trackPeak.magnitude < res.1.track then
              { magnitude := res.1.track, offset := res.1.trackAt } else e.trackPeak }
        else { e with second := 0 }) ∧
      (s.part.line.state ≠ .settling → ∀ e ∈ s.part.cat.entries, e.uid ≠ x.entry → e ∈ t.part.cat.entries) ∧
      (res.1.watch = true → t.part.isPending .watchHit = true) ∧ (t.part.store.queue b) = q ∧
      Completes s.part t.part r .ok (some (resultArea
        [(64, leBytes 1 res.1.verdict.value), (65, leBytes 1 x.key.format), (66, leBytes 1 res.1.kept.length),
         (68, leBytes 4 x.gen.number), (72, leBytes 2 x.gen.length), (74, leBytes 2 (s.part.engine.lane l).capture.length),
         (76, leBytes 2 res.1.compared), (78, leBytes 2 res.1.tolerated), (80, leBytes 2 res.1.total), (82, leBytes 2 res.2),
         (84, leBytes 2 res.1.usage), (86, leBytes 1 (orNone res.1.usageRule)), (88, leBytes 2 res.1.usageAt),
         (90, leBytes 2 res.1.trackAt), (92, leBytes 4 res.1.track), (96, leBytes 4 (s.part.engine.lane l).captureCrc),
         (100, leBytes 4 x.gen.crc)])) (some (fillTo 128 0x00#8 (res.1.kept.flatMap Finding.bytes))) ∧ t.part.host = s.part.host ∧
      t.pending = s.pending

/-- R107, R108, R109, R114, R118: a page program of an image that goes well raises the unit's count and asks for the next page; an erase
between requests that goes well leaves the image unit FREE, with no page or slot, every byte FFh and its pending, weak, skip and passed-over marks clear. A read of a
page not programmed since the unit's last erase ends error-free, whatever is given as its bits in error. -/
def Obligations.PageProgramAndEraseEnd : Prop :=
  ∀ (s : State) (b : Bank) (q : List BankJob) (u page i : Nat) (data : List Byte) (run : PageRun) (second : Bool),
    s.part.on = true → u < s.part.store.units.length →
    (s.part.store.queue b = { client := .catalogue, op := .programPage u page data } :: q →
      s.part.cat.await = some (.program run i second) → i + 1 < run.pages → run.unit = u →
      ∃ t, exec (.pageProgramDone b .done) s = .next t ∧ (t.part.store.unit u).pages = page + 1 ∧
        (t.part.store.unit u).mode = .image ∧ t.part.cat.await = some (.program run (i + 1) second) ∧
        (t.part.store.queue (bankOf u)).getLast? =
          some { client := .catalogue, op := .programPage u (run.first + (i + 1)) (imagePage s.part.cat.buffer (i + 1)) } ∧
        t.part.cat.entries = s.part.cat.entries ∧ t.part.host = s.part.host ∧ t.pending = s.pending) ∧
    (s.part.store.queue b = { client := .catalogue, op := .eraseUnit u } :: q → s.part.cat.await = some (.erase u [] .between) →
      s.part.cat.todo = [] → s.part.store.isImage u = true →
      ∃ t, exec (.eraseDone b .done) s = .next t ∧ (t.part.store.unit u).cls = some .free ∧ (t.part.store.unit u).pages = 0 ∧
        (t.part.store.unit u).mode = .erased ∧ (t.part.store.unit u).pending = false ∧ (t.part.store.unit u).weak = false ∧
        (t.part.store.unit u).slots = 0 ∧ (t.part.store.unit u).skip = false ∧ (t.part.store.unit u).passed = false ∧
        (t.part.store.unit u).live = 0 ∧
        (∀ a, u * 16384 ≤ a → a < (u + 1) * 16384 → Mem.read flashBlank t.part.store.flash a = 0xFF#8) ∧
        (∀ a, a < u * 16384 ∨ (u + 1) * 16384 ≤ a →
          Mem.read flashBlank t.part.store.flash a = Mem.read flashBlank s.part.store.flash a) ∧
        t.part.cat.work = .idle ∧ t.part.cat.entries = s.part.cat.entries ∧ t.part.host = s.part.host ∧ t.pending = s.pending) ∧
    (∀ (client : Client) (v k errors : Nat), s.part.store.queue b = { client := client, op := .readPage v k } :: q →
      (s.part.store.unit v).pages ≤ k → exec (.pageReadDone b errors) s = exec (.pageReadDone b 0) s)
end

