-- ==== Sys2Proof/Laws/State.lean ====
section
/-! SUPPORT. One lemma per field for each small update of the part, so that no later proof unfolds a record update. -/

namespace Sys2Proof.Machine

@[simp] theorem Part.raise_pins (p : Part) (c : Cause) : (p.raise c).pins = p.pins := rfl
@[simp] theorem Part.raise_device (p : Part) (c : Cause) : (p.raise c).device = p.device := rfl
@[simp] theorem Part.raise_gap (p : Part) (c : Cause) : (p.raise c).gap = p.gap := rfl
@[simp] theorem Part.raise_key (p : Part) (c : Cause) : (p.raise c).key = p.key := rfl
@[simp] theorem Part.raise_line (p : Part) (c : Cause) : (p.raise c).line = p.line := rfl
@[simp] theorem Part.raise_rules (p : Part) (c : Cause) : (p.raise c).rules = p.rules := rfl
@[simp] theorem Part.raise_cat (p : Part) (c : Cause) : (p.raise c).cat = p.cat := rfl
@[simp] theorem Part.raise_engine (p : Part) (c : Cause) : (p.raise c).engine = p.engine := rfl
@[simp] theorem Part.raise_store (p : Part) (c : Cause) : (p.raise c).store = p.store := rfl
@[simp] theorem Part.raise_port (p : Part) (c : Cause) : (p.raise c).port = p.port := rfl
@[simp] theorem Part.raise_host (p : Part) (c : Cause) : (p.raise c).host = p.host := rfl

@[simp] theorem Part.withStore_pins (p : Part) (f : Store → Store) : (p.withStore f).pins = p.pins := rfl
@[simp] theorem Part.withStore_device (p : Part) (f : Store → Store) : (p.withStore f).device = p.device := rfl
@[simp] theorem Part.withStore_gap (p : Part) (f : Store → Store) : (p.withStore f).gap = p.gap := rfl
@[simp] theorem Part.withStore_att (p : Part) (f : Store → Store) : (p.withStore f).att = p.att := rfl
@[simp] theorem Part.withStore_key (p : Part) (f : Store → Store) : (p.withStore f).key = p.key := rfl
@[simp] theorem Part.withStore_line (p : Part) (f : Store → Store) : (p.withStore f).line = p.line := rfl
@[simp] theorem Part.withStore_rules (p : Part) (f : Store → Store) : (p.withStore f).rules = p.rules := rfl
@[simp] theorem Part.withStore_cat (p : Part) (f : Store → Store) : (p.withStore f).cat = p.cat := rfl
@[simp] theorem Part.withStore_engine (p : Part) (f : Store → Store) : (p.withStore f).engine = p.engine := rfl
@[simp] theorem Part.withStore_port (p : Part) (f : Store → Store) : (p.withStore f).port = p.port := rfl
@[simp] theorem Part.withStore_host (p : Part) (f : Store → Store) : (p.withStore f).host = p.host := rfl

@[simp] theorem Part.withCat_pins (p : Part) (f : CatUnit → CatUnit) : (p.withCat f).pins = p.pins := rfl
@[simp] theorem Part.withCat_device (p : Part) (f : CatUnit → CatUnit) : (p.withCat f).device = p.device := rfl
@[simp] theorem Part.withCat_gap (p : Part) (f : CatUnit → CatUnit) : (p.withCat f).gap = p.gap := rfl
@[simp] theorem Part.withCat_att (p : Part) (f : CatUnit → CatUnit) : (p.withCat f).att = p.att := rfl
@[simp] theorem Part.withCat_key (p : Part) (f : CatUnit → CatUnit) : (p.withCat f).key = p.key := rfl
@[simp] theorem Part.withCat_line (p : Part) (f : CatUnit → CatUnit) : (p.withCat f).line = p.line := rfl
@[simp] theorem Part.withCat_rules (p : Part) (f : CatUnit → CatUnit) : (p.withCat f).rules = p.rules := rfl
@[simp] theorem Part.withCat_engine (p : Part) (f : CatUnit → CatUnit) : (p.withCat f).engine = p.engine := rfl
@[simp] theorem Part.withCat_store (p : Part) (f : CatUnit → CatUnit) : (p.withCat f).store = p.store := rfl
@[simp] theorem Part.withCat_port (p : Part) (f : CatUnit → CatUnit) : (p.withCat f).port = p.port := rfl
@[simp] theorem Part.withCat_host (p : Part) (f : CatUnit → CatUnit) : (p.withCat f).host = p.host := rfl

@[simp] theorem Part.withEntries_pins (p : Part) (f : List Entry → List Entry) : (p.withEntries f).pins = p.pins := rfl
@[simp] theorem Part.withEntries_device (p : Part) (f : List Entry → List Entry) : (p.withEntries f).device = p.device := rfl
@[simp] theorem Part.withEntries_gap (p : Part) (f : List Entry → List Entry) : (p.withEntries f).gap = p.gap := rfl
@[simp] theorem Part.withEntries_att (p : Part) (f : List Entry → List Entry) : (p.withEntries f).att = p.att := rfl
@[simp] theorem Part.withEntries_key (p : Part) (f : List Entry → List Entry) : (p.withEntries f).key = p.key := rfl
@[simp] theorem Part.withEntries_line (p : Part) (f : List Entry → List Entry) : (p.withEntries f).line = p.line := rfl
@[simp] theorem Part.withEntries_rules (p : Part) (f : List Entry → List Entry) : (p.withEntries f).rules = p.rules := rfl
@[simp] theorem Part.withEntries_engine (p : Part) (f : List Entry → List Entry) : (p.withEntries f).engine = p.engine := rfl
@[simp] theorem Part.withEntries_store (p : Part) (f : List Entry → List Entry) : (p.withEntries f).store = p.store := rfl
@[simp] theorem Part.withEntries_port (p : Part) (f : List Entry → List Entry) : (p.withEntries f).port = p.port := rfl
@[simp] theorem Part.withEntries_host (p : Part) (f : List Entry → List Entry) : (p.withEntries f).host = p.host := rfl

@[simp] theorem Part.modifyEntry_pins (p : Part) (u : Nat) (f : Entry → Entry) : (p.modifyEntry u f).pins = p.pins := rfl
@[simp] theorem Part.modifyEntry_device (p : Part) (u : Nat) (f : Entry → Entry) : (p.modifyEntry u f).device = p.device := rfl
@[simp] theorem Part.modifyEntry_gap (p : Part) (u : Nat) (f : Entry → Entry) : (p.modifyEntry u f).gap = p.gap := rfl
@[simp] theorem Part.modifyEntry_att (p : Part) (u : Nat) (f : Entry → Entry) : (p.modifyEntry u f).att = p.att := rfl
@[simp] theorem Part.modifyEntry_key (p : Part) (u : Nat) (f : Entry → Entry) : (p.modifyEntry u f).key = p.key := rfl
@[simp] theorem Part.modifyEntry_line (p : Part) (u : Nat) (f : Entry → Entry) : (p.modifyEntry u f).line = p.line := rfl
@[simp] theorem Part.modifyEntry_rules (p : Part) (u : Nat) (f : Entry → Entry) : (p.modifyEntry u f).rules = p.rules := rfl
@[simp] theorem Part.modifyEntry_engine (p : Part) (u : Nat) (f : Entry → Entry) : (p.modifyEntry u f).engine = p.engine := rfl
@[simp] theorem Part.modifyEntry_store (p : Part) (u : Nat) (f : Entry → Entry) : (p.modifyEntry u f).store = p.store := rfl
@[simp] theorem Part.modifyEntry_port (p : Part) (u : Nat) (f : Entry → Entry) : (p.modifyEntry u f).port = p.port := rfl
@[simp] theorem Part.modifyEntry_host (p : Part) (u : Nat) (f : Entry → Entry) : (p.modifyEntry u f).host = p.host := rfl

@[simp] theorem Part.modifyStation_pins (p : Part) (n : Nat) (f : Station → Station) : (p.modifyStation n f).pins = p.pins := rfl
@[simp] theorem Part.modifyStation_device (p : Part) (n : Nat) (f : Station → Station) : (p.modifyStation n f).device = p.device := rfl
@[simp] theorem Part.modifyStation_gap (p : Part) (n : Nat) (f : Station → Station) : (p.modifyStation n f).gap = p.gap := rfl
@[simp] theorem Part.modifyStation_att (p : Part) (n : Nat) (f : Station → Station) : (p.modifyStation n f).att = p.att := rfl
@[simp] theorem Part.modifyStation_key (p : Part) (n : Nat) (f : Station → Station) : (p.modifyStation n f).key = p.key := rfl
@[simp] theorem Part.modifyStation_rules (p : Part) (n : Nat) (f : Station → Station) : (p.modifyStation n f).rules = p.rules := rfl
@[simp] theorem Part.modifyStation_cat (p : Part) (n : Nat) (f : Station → Station) : (p.modifyStation n f).cat = p.cat := rfl
@[simp] theorem Part.modifyStation_engine (p : Part) (n : Nat) (f : Station → Station) : (p.modifyStation n f).engine = p.engine := rfl
@[simp] theorem Part.modifyStation_store (p : Part) (n : Nat) (f : Station → Station) : (p.modifyStation n f).store = p.store := rfl
@[simp] theorem Part.modifyStation_port (p : Part) (n : Nat) (f : Station → Station) : (p.modifyStation n f).port = p.port := rfl
@[simp] theorem Part.modifyStation_host (p : Part) (n : Nat) (f : Station → Station) : (p.modifyStation n f).host = p.host := rfl

@[simp] theorem Part.modifyBundle_pins (p : Part) (b : Nat) (f : Bundle → Bundle) : (p.modifyBundle b f).pins = p.pins := rfl
@[simp] theorem Part.modifyBundle_device (p : Part) (b : Nat) (f : Bundle → Bundle) : (p.modifyBundle b f).device = p.device := rfl
@[simp] theorem Part.modifyBundle_gap (p : Part) (b : Nat) (f : Bundle → Bundle) : (p.modifyBundle b f).gap = p.gap := rfl
@[simp] theorem Part.modifyBundle_att (p : Part) (b : Nat) (f : Bundle → Bundle) : (p.modifyBundle b f).att = p.att := rfl
@[simp] theorem Part.modifyBundle_key (p : Part) (b : Nat) (f : Bundle → Bundle) : (p.modifyBundle b f).key = p.key := rfl
@[simp] theorem Part.modifyBundle_line (p : Part) (b : Nat) (f : Bundle → Bundle) : (p.modifyBundle b f).line = p.line := rfl
@[simp] theorem Part.modifyBundle_rules (p : Part) (b : Nat) (f : Bundle → Bundle) : (p.modifyBundle b f).rules = p.rules := rfl
@[simp] theorem Part.modifyBundle_cat (p : Part) (b : Nat) (f : Bundle → Bundle) : (p.modifyBundle b f).cat = p.cat := rfl
@[simp] theorem Part.modifyBundle_engine (p : Part) (b : Nat) (f : Bundle → Bundle) : (p.modifyBundle b f).engine = p.engine := rfl
@[simp] theorem Part.modifyBundle_store (p : Part) (b : Nat) (f : Bundle → Bundle) : (p.modifyBundle b f).store = p.store := rfl
@[simp] theorem Part.modifyBundle_host (p : Part) (b : Nat) (f : Bundle → Bundle) : (p.modifyBundle b f).host = p.host := rfl

@[simp] theorem Part.hostWrite_pins (p : Part) (a : Nat) (bs : List Byte) : (p.hostWrite a bs).pins = p.pins := rfl
@[simp] theorem Part.hostWrite_device (p : Part) (a : Nat) (bs : List Byte) : (p.hostWrite a bs).device = p.device := rfl
@[simp] theorem Part.hostWrite_gap (p : Part) (a : Nat) (bs : List Byte) : (p.hostWrite a bs).gap = p.gap := rfl
@[simp] theorem Part.hostWrite_att (p : Part) (a : Nat) (bs : List Byte) : (p.hostWrite a bs).att = p.att := rfl
@[simp] theorem Part.hostWrite_key (p : Part) (a : Nat) (bs : List Byte) : (p.hostWrite a bs).key = p.key := rfl
@[simp] theorem Part.hostWrite_line (p : Part) (a : Nat) (bs : List Byte) : (p.hostWrite a bs).line = p.line := rfl
@[simp] theorem Part.hostWrite_rules (p : Part) (a : Nat) (bs : List Byte) : (p.hostWrite a bs).rules = p.rules := rfl
@[simp] theorem Part.hostWrite_cat (p : Part) (a : Nat) (bs : List Byte) : (p.hostWrite a bs).cat = p.cat := rfl
@[simp] theorem Part.hostWrite_engine (p : Part) (a : Nat) (bs : List Byte) : (p.hostWrite a bs).engine = p.engine := rfl
@[simp] theorem Part.hostWrite_store (p : Part) (a : Nat) (bs : List Byte) : (p.hostWrite a bs).store = p.store := rfl
@[simp] theorem Part.hostWrite_port (p : Part) (a : Nat) (bs : List Byte) : (p.hostWrite a bs).port = p.port := rfl

@[simp] theorem Part.hostStores_pins (p : Part) (cs : List Host.Cell) : (p.hostStores cs).pins = p.pins := rfl
@[simp] theorem Part.hostStores_device (p : Part) (cs : List Host.Cell) : (p.hostStores cs).device = p.device := rfl
@[simp] theorem Part.hostStores_gap (p : Part) (cs : List Host.Cell) : (p.hostStores cs).gap = p.gap := rfl
@[simp] theorem Part.hostStores_att (p : Part) (cs : List Host.Cell) : (p.hostStores cs).att = p.att := rfl
@[simp] theorem Part.hostStores_key (p : Part) (cs : List Host.Cell) : (p.hostStores cs).key = p.key := rfl
@[simp] theorem Part.hostStores_line (p : Part) (cs : List Host.Cell) : (p.hostStores cs).line = p.line := rfl
@[simp] theorem Part.hostStores_rules (p : Part) (cs : List Host.Cell) : (p.hostStores cs).rules = p.rules := rfl
@[simp] theorem Part.hostStores_cat (p : Part) (cs : List Host.Cell) : (p.hostStores cs).cat = p.cat := rfl
@[simp] theorem Part.hostStores_engine (p : Part) (cs : List Host.Cell) : (p.hostStores cs).engine = p.engine := rfl
@[simp] theorem Part.hostStores_store (p : Part) (cs : List Host.Cell) : (p.hostStores cs).store = p.store := rfl
@[simp] theorem Part.hostStores_port (p : Part) (cs : List Host.Cell) : (p.hostStores cs).port = p.port := rfl

@[simp] theorem complete_pins (p : Part) (r : Request) (c : Code) (x y : Option (List Byte)) : (complete p r c x y).pins = p.pins := rfl
@[simp] theorem complete_device (p : Part) (r : Request) (c : Code) (x y : Option (List Byte)) : (complete p r c x y).device = p.device := rfl
@[simp] theorem complete_gap (p : Part) (r : Request) (c : Code) (x y : Option (List Byte)) : (complete p r c x y).gap = p.gap := rfl
@[simp] theorem complete_att (p : Part) (r : Request) (c : Code) (x y : Option (List Byte)) : (complete p r c x y).att = p.att := rfl
@[simp] theorem complete_key (p : Part) (r : Request) (c : Code) (x y : Option (List Byte)) : (complete p r c x y).key = p.key := rfl
@[simp] theorem complete_line (p : Part) (r : Request) (c : Code) (x y : Option (List Byte)) : (complete p r c x y).line = p.line := rfl
@[simp] theorem complete_rules (p : Part) (r : Request) (c : Code) (x y : Option (List Byte)) : (complete p r c x y).rules = p.rules := rfl
@[simp] theorem complete_cat (p : Part) (r : Request) (c : Code) (x y : Option (List Byte)) : (complete p r c x y).cat = p.cat := rfl
@[simp] theorem complete_engine (p : Part) (r : Request) (c : Code) (x y : Option (List Byte)) : (complete p r c x y).engine = p.engine := rfl
@[simp] theorem complete_store (p : Part) (r : Request) (c : Code) (x y : Option (List Byte)) : (complete p r c x y).store = p.store := rfl
@[simp] theorem complete_host (p : Part) (r : Request) (c : Code) (x y : Option (List Byte)) : (complete p r c x y).host = p.host := rfl

@[simp] theorem handOver_pins (p : Part) : (handOver p).pins = p.pins := rfl
@[simp] theorem handOver_device (p : Part) : (handOver p).device = p.device := rfl
@[simp] theorem handOver_gap (p : Part) : (handOver p).gap = p.gap := rfl
@[simp] theorem handOver_att (p : Part) : (handOver p).att = p.att := rfl
@[simp] theorem handOver_key (p : Part) : (handOver p).key = p.key := rfl
@[simp] theorem handOver_line (p : Part) : (handOver p).line = p.line := rfl
@[simp] theorem handOver_rules (p : Part) : (handOver p).rules = p.rules := rfl
@[simp] theorem handOver_cat (p : Part) : (handOver p).cat = p.cat := rfl
@[simp] theorem handOver_engine (p : Part) : (handOver p).engine = p.engine := rfl
@[simp] theorem handOver_store (p : Part) : (handOver p).store = p.store := rfl
@[simp] theorem handOver_host (p : Part) : (handOver p).host = p.host := rfl

@[simp] theorem push_pins (p : Part) (ops : List CuOp) : (push ops p).pins = p.pins := rfl
@[simp] theorem push_device (p : Part) (ops : List CuOp) : (push ops p).device = p.device := rfl
@[simp] theorem push_gap (p : Part) (ops : List CuOp) : (push ops p).gap = p.gap := rfl
@[simp] theorem push_att (p : Part) (ops : List CuOp) : (push ops p).att = p.att := rfl
@[simp] theorem push_key (p : Part) (ops : List CuOp) : (push ops p).key = p.key := rfl
@[simp] theorem push_line (p : Part) (ops : List CuOp) : (push ops p).line = p.line := rfl
@[simp] theorem push_rules (p : Part) (ops : List CuOp) : (push ops p).rules = p.rules := rfl
@[simp] theorem push_engine (p : Part) (ops : List CuOp) : (push ops p).engine = p.engine := rfl
@[simp] theorem push_store (p : Part) (ops : List CuOp) : (push ops p).store = p.store := rfl
@[simp] theorem push_port (p : Part) (ops : List CuOp) : (push ops p).port = p.port := rfl
@[simp] theorem push_host (p : Part) (ops : List CuOp) : (push ops p).host = p.host := rfl

@[simp] theorem Part.withStore_store (p : Part) (f : Store → Store) : (p.withStore f).store = f p.store := rfl
@[simp] theorem Part.withCat_cat (p : Part) (f : CatUnit → CatUnit) : (p.withCat f).cat = f p.cat := rfl
@[simp] theorem Part.withEntries_entries (p : Part) (f : List Entry → List Entry) :
    (p.withEntries f).cat.entries = f p.cat.entries := rfl
@[simp] theorem State.mapPart_pending (s : State) (f : Part → Part) : (s.mapPart f).pending = s.pending := rfl
@[simp] theorem State.mapPart_part (s : State) (f : Part → Part) : (s.mapPart f).part = f s.part := rfl
@[simp] theorem State.apply_eq (s : State) (f : Part → Part) : s.apply f = .next (s.mapPart f) := rfl

theorem modifyNth_length {α : Type} (f : α → α) (n : Nat) (xs : List α) : (modifyNth f n xs).length = xs.length := by
  induction xs generalizing n with
  | nil => cases n <;> rfl
  | cons x xs ih => cases n <;> simp [modifyNth, ih]

theorem modifyNth_getD_same {α : Type} (f : α → α) (n : Nat) (xs : List α) (d : α) (h : n < xs.length) :
    (modifyNth f n xs).getD n d = f (xs.getD n d) := by
  induction xs generalizing n with
  | nil => simp at h
  | cons x xs ih =>
    cases n with
    | zero => rfl
    | succ n => simpa [modifyNth] using ih n (by simpa using h)

theorem modifyNth_getD_other {α : Type} (f : α → α) (n m : Nat) (xs : List α) (d : α) (h : m ≠ n) :
    (modifyNth f n xs).getD m d = xs.getD m d := by
  induction xs generalizing n m with
  | nil => cases n <;> rfl
  | cons x xs ih =>
    cases n with
    | zero =>
      cases m with
      | zero => exact absurd rfl h
      | succ m => rfl
    | succ n =>
      cases m with
      | zero => rfl
      | succ m => simpa [modifyNth] using ih n m (by omega)

end Sys2Proof.Machine
end

