-- ==== Sys2Proof/Laws/Exec.lean ====
section
/-! SUPPORT. What the shared operations can do, said once: every command has a next state, the recomputation, the line's passages, and
what holds of all the work of the Catalogue Unit when it holds of each operation. -/

namespace Sys2Proof.Machine

/-! ## Commands -/

/-- Every command has a next state, and leaves the queue of commands as it is. -/
theorem exec_next (i : Instr) (s : State) : ∃ p, exec i s = .next { s with part := p } := by
  cases i <;> exact ⟨_, rfl⟩

/-- The queue of commands is not a command's to change. -/
theorem exec_pending {i : Instr} {s t : State} (h : exec i s = .next t) : t.pending = s.pending := by
  obtain ⟨p, hp⟩ := exec_next i s
  rw [hp] at h
  cases h
  rfl

/-- What a step can do: nothing on an empty queue, else the front command with the queue's rest. -/
theorem step_cases {s t : State} (h : step s = .next t) :
    (s.pending = [] ∧ t = s) ∨ ∃ c cs, s.pending = c :: cs ∧ exec c { s with pending := cs } = .next t := by
  unfold step at h
  split at h
  · rename_i hp
    cases h
    exact .inl ⟨hp, rfl⟩
  · rename_i c cs hp
    exact .inr ⟨c, cs, hp, h⟩

/-! ## The recomputation -/

/-- CONFORM is driven to its condition; whatever else the line holds, and every block but the pending set, stays. -/
theorem driveConform_frame (p : Part) :
    (driveConform p).line = { p.line with conform := conformCondition p } ∧ (driveConform p).cat = p.cat ∧
    (driveConform p).store = p.store ∧ (driveConform p).engine = p.engine ∧ (driveConform p).rules = p.rules ∧
    (driveConform p).host = p.host ∧ (driveConform p).port = p.port ∧ (driveConform p).pins = p.pins ∧
    (driveConform p).key = p.key ∧ (driveConform p).device = p.device ∧ (driveConform p).gap = p.gap := by
  unfold driveConform
  dsimp only
  split <;> simp

/-- The recomputation changes the stations' states and counts, CONFORM, the pending set and the port's copy, and nothing else. -/
theorem recompute_frame (p : Part) :
    (∃ c, (recompute p).line = { p.line with stations := judgeStations p, conform := c }) ∧ (recompute p).cat = p.cat ∧
    (recompute p).store = p.store ∧ (recompute p).engine = p.engine ∧ (recompute p).rules = p.rules ∧
    (recompute p).host = p.host ∧ (recompute p).pins = p.pins ∧ (recompute p).key = p.key ∧
    (recompute p).device = p.device ∧ (recompute p).gap = p.gap ∧ (recompute p).port.completions = p.port.completions := by
  unfold recompute
  dsimp only
  split <;>
  · obtain ⟨h1, h2, h3, h4, h5, h6, h7, h8, h9, h10, h11⟩ := driveConform_frame _
    refine ⟨⟨_, by rw [handOver_line]; exact h1⟩, by rw [handOver_cat]; exact h2, by rw [handOver_store]; exact h3,
      by rw [handOver_engine]; exact h4, by rw [handOver_rules]; exact h5, by rw [handOver_host]; exact h6,
      by rw [handOver_pins]; exact h8, by rw [handOver_key]; exact h9, by rw [handOver_device]; exact h10,
      by rw [handOver_gap]; exact h11, by show (driveConform _).port.completions = _; rw [h7]; first | done | rfl⟩

@[simp] theorem recompute_cat (p : Part) : (recompute p).cat = p.cat := (recompute_frame p).2.1
@[simp] theorem recompute_store (p : Part) : (recompute p).store = p.store := (recompute_frame p).2.2.1
@[simp] theorem recompute_engine (p : Part) : (recompute p).engine = p.engine := (recompute_frame p).2.2.2.1
@[simp] theorem recompute_rules (p : Part) : (recompute p).rules = p.rules := (recompute_frame p).2.2.2.2.1
@[simp] theorem recompute_host (p : Part) : (recompute p).host = p.host := (recompute_frame p).2.2.2.2.2.1
@[simp] theorem recompute_pins (p : Part) : (recompute p).pins = p.pins := (recompute_frame p).2.2.2.2.2.2.1
@[simp] theorem recompute_key (p : Part) : (recompute p).key = p.key := (recompute_frame p).2.2.2.2.2.2.2.1
@[simp] theorem recompute_device (p : Part) : (recompute p).device = p.device := (recompute_frame p).2.2.2.2.2.2.2.2.1
@[simp] theorem recompute_gap (p : Part) : (recompute p).gap = p.gap := (recompute_frame p).2.2.2.2.2.2.2.2.2.1
@[simp] theorem recompute_completions (p : Part) : (recompute p).port.completions = p.port.completions :=
  (recompute_frame p).2.2.2.2.2.2.2.2.2.2

@[simp] theorem recompute_lineState (p : Part) : (recompute p).line.state = p.line.state := by
  obtain ⟨c, h⟩ := (recompute_frame p).1
  rw [h]
@[simp] theorem recompute_lineActive (p : Part) : (recompute p).line.active = p.line.active := by
  obtain ⟨c, h⟩ := (recompute_frame p).1
  rw [h]
@[simp] theorem recompute_lineTarget (p : Part) : (recompute p).line.target = p.line.target := by
  obtain ⟨c, h⟩ := (recompute_frame p).1
  rw [h]
@[simp] theorem recompute_lineEpoch (p : Part) : (recompute p).line.epoch = p.line.epoch := by
  obtain ⟨c, h⟩ := (recompute_frame p).1
  rw [h]
@[simp] theorem recompute_lineDeadline (p : Part) : (recompute p).line.deadline = p.line.deadline := by
  obtain ⟨c, h⟩ := (recompute_frame p).1
  rw [h]
@[simp] theorem recompute_lineSeconds (p : Part) : (recompute p).line.seconds = p.line.seconds := by
  obtain ⟨c, h⟩ := (recompute_frame p).1
  rw [h]

/-- The recomputation at the end of mount: as the other, and no cause is raised but CONFORM_LOST. -/
theorem settleStations_frame (p : Part) :
    (∃ c, (settleStations p).line = { p.line with stations := judgeStations p, conform := c }) ∧ (settleStations p).cat = p.cat ∧
    (settleStations p).store = p.store ∧ (settleStations p).engine = p.engine ∧ (settleStations p).rules = p.rules ∧
    (settleStations p).host = p.host ∧ (settleStations p).pins = p.pins ∧ (settleStations p).key = p.key ∧
    (settleStations p).device = p.device ∧ (settleStations p).gap = p.gap := by
  unfold settleStations
  obtain ⟨h1, h2, h3, h4, h5, h6, h7, h8, h9, h10, h11⟩ :=
    driveConform_frame { p with line := { p.line with stations := judgeStations p } }
  exact ⟨⟨_, by rw [handOver_line]; exact h1⟩, by rw [handOver_cat]; exact h2, by rw [handOver_store]; exact h3,
    by rw [handOver_engine]; exact h4, by rw [handOver_rules]; exact h5, by rw [handOver_host]; exact h6,
    by rw [handOver_pins]; exact h8, by rw [handOver_key]; exact h9, by rw [handOver_device]; exact h10,
    by rw [handOver_gap]; exact h11⟩

/-! ## Reads and reports -/

/-- A programmed page meets the bits in error that are given. -/
@[simp] theorem Store.pageErrors_programmed {s : Store} {u page errors : Nat} (h : page < (s.unit u).pages) :
    s.pageErrors u page errors = errors := by
  simp [Store.pageErrors, Store.readsErased, Nat.not_le.mpr h]

/-- An erased page is read error-free. -/
@[simp] theorem Store.pageErrors_erased {s : Store} {u page errors : Nat} (h : (s.unit u).pages ≤ page) :
    s.pageErrors u page errors = 0 := by
  simp [Store.pageErrors, Store.readsErased, h]

/-- A report taken changes damaged flags, and nothing else. -/
theorem applyReport_frame (d : DamageReport) (p : Part) :
    ∃ es, applyReport d p = { p with cat := { p.cat with entries := es } } := ⟨_, rfl⟩

/-- The reports taken at once change damaged flags and leave no report waiting; nothing else changes. -/
theorem reportAtOnce_frame (d : DamageReport) (p : Part) :
    ∃ es, reportAtOnce d p = { p with cat := { p.cat with entries := es, reports := [] } } := by
  have all : ∀ (ds : List DamageReport) (q : Part),
      ∃ es, ds.foldl (fun q d => applyReport d q) q = { q with cat := { q.cat with entries := es } } := by
    intro ds
    induction ds with
    | nil => exact fun q => ⟨q.cat.entries, rfl⟩
    | cons d ds ih =>
      intro q
      obtain ⟨es, h⟩ := ih (applyReport d q)
      obtain ⟨fs, g⟩ := applyReport_frame d q
      exact ⟨es, by rw [List.foldl_cons, h, g]⟩
  obtain ⟨es, h⟩ := all (p.cat.reports ++ [d]) (p.withCat fun c => { c with reports := [] })
  exact ⟨es, h⟩

/-! ## Transfers -/

/-- A transfer that goes through with nothing arriving leaves the bus as it is. -/
@[simp] theorem Bus.over_quiet (b : Bus) : b.over none true = b := rfl

/-- What a transfer that is over can do: nothing, or a request for a disable to come, or it is the last of its step. -/
theorem Bus.over_cases (b : Bus) (e : Option BusEvent) (went : Bool) :
    b.over e went = b ∨ (∃ i, b.over e went = { b with stop := some i }) ∨ (b.over e went).up = false := by
  unfold Bus.over
  split
  · exact .inr (.inr rfl)
  · exact .inr (.inr rfl)
  · split
    · exact .inr (.inl ⟨_, rfl⟩)
    · exact .inr (.inr rfl)
  · split
    · exact .inl rfl
    · exact .inr (.inr rfl)
  · split
    · exact .inl rfl
    · exact .inr (.inr rfl)

/-! ## Causes -/

/-- A cause raised is pending. -/
theorem Part.raise_isPending (p : Part) (c : Cause) : (p.raise c).isPending c = true := by
  cases c <;> simp [Part.raise, Part.isPending, Cause.mask, Cause.bit]

/-- Raising a cause takes no cause away. -/
theorem Part.isPending_raise (p : Part) (c d : Cause) (h : p.isPending d = true) : (p.raise c).isPending d = true := by
  simp only [Part.isPending, Part.raise, BitVec.getLsbD_or, Bool.or_eq_true] at *
  exact .inl h

/-! ## The work of the Catalogue Unit -/

/-- What the test of the run flag and a hand-over keep, the act at a change of the FREE count keeps. -/
theorem freeTested_keeps (P : Part → Prop) (htest : ∀ p, P p → P (reclaimTest p)) (hand : ∀ p, P p → P (handOver p)) (old p : Part)
    (h : P p) : P (freeTested old p) := by
  unfold freeTested
  split
  · exact h
  · exact hand _ (htest p h)

/-- A change of the FREE count is in the port's copy at once. -/
theorem freeTested_copy {old p : Part} (h : p.store.freeCount ≠ old.store.freeCount) :
    (freeTested old p).port.copy = statusNow (reclaimTest p) := by
  simp [freeTested, h, handOver]

/-- What every operation keeps, the unit's work keeps. -/
theorem cuRun_keeps (P : Part → Prop) (hop : ∀ op p, P p → P (workOp op p)) (hdo : ∀ ops p, P p → P (onlyDo ops p))
    (hend : ∀ p, P p → P (endJob p)) (htest : ∀ p, P p → P (reclaimTest p)) (hand : ∀ p, P p → P (handOver p)) :
    ∀ (n : Nat) (p : Part), P p → P (cuRun n p) := by
  intro n
  induction n with
  | zero => exact fun p h => h
  | succ n ih =>
    intro p h
    unfold cuRun
    split
    · exact h
    · split
      · exact hend p h
      · exact ih _ (freeTested_keeps P htest hand _ _ (hop _ _ (hdo _ _ h)))

/-- What every answer of the store keeps, mount keeps to its end. -/
theorem mountDrive_keeps (P : Part → Prop) (ha : ∀ a b op p, P p → P (answerOne a b op p).1) :
    ∀ (n : Nat) (a : Answers) (p : Part), P p → P (mountDrive n a p).1 := by
  intro n
  induction n with
  | zero => exact fun a p h => h
  | succ n ih =>
    intro a p h
    unfold mountDrive
    split
    · exact h
    · split
      · exact h
      · exact ih _ _ (ha _ _ _ _ h)

end Sys2Proof.Machine
end

