-- ==== Sys2Proof/Laws/Memory.lean ====
section
/-! SUPPORT. Laws of the memories: a read after a write, and the canonical form kept by every memory operation. -/

namespace Sys2Proof.Machine

theorem Mem.read_of_wfAbove {d : Byte} {m : Mem} {lo a : Nat} (h : Mem.wfAbove d (some lo) m = true) (ha : a ≤ lo) :
    Mem.read d m a = d := by
  induction m generalizing lo with
  | nil => rfl
  | cons c r ih =>
    obtain ⟨k, v⟩ := c
    simp only [Mem.wfAbove, Bool.and_eq_true, Option.all_some, decide_eq_true_eq] at h
    have hk : k ≠ a := by omega
    simp only [Mem.read, if_neg hk]
    exact ih h.2 (by omega)

theorem Mem.wfAbove_weaken {d : Byte} {m : Mem} {lo hi : Nat} (h : Mem.wfAbove d (some hi) m = true) (hl : lo ≤ hi) :
    Mem.wfAbove d (some lo) m = true := by
  cases m with
  | nil => rfl
  | cons c r =>
    obtain ⟨k, v⟩ := c
    simp only [Mem.wfAbove, Bool.and_eq_true, Option.all_some, decide_eq_true_eq] at h ⊢
    exact ⟨⟨by omega, h.1.2⟩, h.2⟩

theorem Mem.wfAbove_none {d : Byte} {m : Mem} {lo : Option Nat} (h : Mem.wfAbove d lo m = true) : Mem.wf d m = true := by
  cases m with
  | nil => rfl
  | cons c r =>
    obtain ⟨k, v⟩ := c
    simp only [Mem.wf, Mem.wfAbove, Bool.and_eq_true, Option.all_none, decide_eq_true_eq] at h ⊢
    exact ⟨⟨trivial, h.1.2⟩, h.2⟩

theorem Mem.wfAbove_write {d : Byte} {m : Mem} {lo : Option Nat} {a : Nat} (b : Byte)
    (h : Mem.wfAbove d lo m = true) (hlo : ∀ l ∈ lo, l < a) : Mem.wfAbove d lo (Mem.write d m a b) = true := by
  induction m generalizing lo with
  | nil =>
    by_cases hb : b = d
    · simp [Mem.write, hb, Mem.wfAbove]
    · simp only [Mem.write, if_neg hb, Mem.wfAbove, Bool.and_true, Bool.and_eq_true, decide_eq_true_eq]
      refine ⟨?_, hb⟩
      cases lo with
      | none => rfl
      | some l => simpa using hlo l rfl
  | cons c r ih =>
    obtain ⟨k, v⟩ := c
    have hall : lo.all (fun l => decide (l < a)) = true := by
      cases lo with
      | none => rfl
      | some l => simpa using hlo l rfl
    simp only [Mem.wfAbove, Bool.and_eq_true, decide_eq_true_eq] at h
    obtain ⟨⟨hk, hv⟩, hr⟩ := h
    by_cases h1 : a < k
    · by_cases hb : b = d
      · simp [Mem.write, h1, hb, Mem.wfAbove, hk, hv, hr]
      · simp [Mem.write, h1, hb, Mem.wfAbove, hall, hv, hr]
    · by_cases h2 : a = k
      · subst h2
        by_cases hb : b = d
        · simp only [Mem.write, if_neg h1, if_pos hb, if_true]
          cases lo with
          | none => exact Mem.wfAbove_none hr
          | some l => exact Mem.wfAbove_weaken hr (by have := hlo l rfl; omega)
        · simp [Mem.write, hb, Mem.wfAbove, hall, hr]
      · have : k < a := by omega
        simp only [Mem.write, if_neg h1, if_neg h2, Mem.wfAbove, hk, hv, Bool.true_and, Bool.and_eq_true, decide_eq_true_eq,
          ne_eq, not_false_eq_true]
        exact ⟨trivial, ih hr (by simpa using this)⟩

/-- A write keeps the canonical form. -/
theorem Mem.wf_write {d : Byte} {m : Mem} (a : Nat) (b : Byte) (h : Mem.wf d m = true) : Mem.wf d (Mem.write d m a b) = true :=
  Mem.wfAbove_write b h (by simp)

/-- Writing bytes keeps the canonical form. -/
theorem Mem.wf_writeN {d : Byte} (bs : List Byte) {m : Mem} (a : Nat) (h : Mem.wf d m = true) :
    Mem.wf d (Mem.writeN d m a bs) = true := by
  induction bs generalizing m a with
  | nil => exact h
  | cons b bs ih => exact ih (a + 1) (Mem.wf_write a b h)

/-- The host's own writes keep the canonical form. -/
theorem Mem.wf_apply {d : Byte} (cs : List Host.Cell) {m : Mem} (h : Mem.wf d m = true) : Mem.wf d (Mem.apply d m cs) = true := by
  induction cs generalizing m with
  | nil => exact h
  | cons c cs ih => exact ih (Mem.wf_write c.1 c.2 h)

theorem Mem.wfAbove_filter {d : Byte} (q : Host.Cell → Bool) {m : Mem} {lo : Option Nat} (h : Mem.wfAbove d lo m = true) :
    Mem.wfAbove d lo (m.filter q) = true := by
  induction m generalizing lo with
  | nil => rfl
  | cons c r ih =>
    obtain ⟨k, v⟩ := c
    simp only [Mem.wfAbove, Bool.and_eq_true, decide_eq_true_eq] at h
    obtain ⟨⟨hk, hv⟩, hr⟩ := h
    by_cases hq : q (k, v) = true
    · rw [List.filter_cons_of_pos hq]
      simp [Mem.wfAbove, hk, hv, ih hr]
    · rw [List.filter_cons_of_neg hq]
      have h2 := ih (lo := some k) hr
      cases lo with
      | none => exact Mem.wfAbove_none h2
      | some l =>
        have : l < k := by simpa using hk
        exact Mem.wfAbove_weaken h2 (by omega)

/-- An erase keeps the canonical form. -/
theorem Mem.wf_clear {d : Byte} {m : Mem} (lo hi : Nat) (h : Mem.wf d m = true) : Mem.wf d (Mem.clear m lo hi) = true :=
  Mem.wfAbove_filter _ h

/-- What a failed or torn erase leaves is in canonical form. -/
theorem Mem.wf_eraseMixture (es : List Bool) {m : Mem} (a : Nat) (h : Mem.wf flashBlank m = true) :
    Mem.wf flashBlank (eraseMixture m a es) = true := by
  induction es generalizing m a with
  | nil => exact h
  | cons e es ih =>
    simp only [eraseMixture]
    split
    · exact ih (a + 1) (Mem.wf_write a _ h)
    · exact ih (a + 1) h

theorem Mem.read_write_above {d : Byte} {m : Mem} {lo : Option Nat} {a : Nat} (b : Byte) (h : Mem.wfAbove d lo m = true) :
    Mem.read d (Mem.write d m a b) a = b := by
  induction m generalizing lo with
  | nil => by_cases hb : b = d <;> simp [Mem.write, Mem.read, hb]
  | cons c r ih =>
    obtain ⟨k, v⟩ := c
    simp only [Mem.wfAbove, Bool.and_eq_true] at h
    by_cases h1 : a < k
    · have hk : k ≠ a := by omega
      by_cases hb : b = d
      · simp [Mem.write, h1, hb, Mem.read, hk, Mem.read_of_wfAbove h.2 (Nat.le_of_lt h1)]
      · simp [Mem.write, h1, hb, Mem.read]
    · by_cases h2 : a = k
      · subst h2
        by_cases hb : b = d
        · simp [Mem.write, hb, Mem.read_of_wfAbove h.2 (Nat.le_refl a)]
        · simp [Mem.write, hb, Mem.read]
      · have hk : k ≠ a := Ne.symm h2
        simp only [Mem.write, if_neg h1, if_neg h2, Mem.read, if_neg hk]
        exact ih h.2

/-- A read after a write to the same place gives the value written. -/
theorem Mem.read_write_same {d : Byte} {m : Mem} (a : Nat) (b : Byte) (h : Mem.wf d m = true) :
    Mem.read d (Mem.write d m a b) a = b := Mem.read_write_above b h

/-- A write leaves every other place alone. -/
theorem Mem.read_write_other {d : Byte} {m : Mem} {a c : Nat} (b : Byte) (hc : c ≠ a) :
    Mem.read d (Mem.write d m a b) c = Mem.read d m c := by
  induction m with
  | nil => by_cases hb : b = d <;> simp [Mem.write, Mem.read, hb, Ne.symm hc]
  | cons x r ih =>
    obtain ⟨k, v⟩ := x
    by_cases h1 : a < k
    · by_cases hb : b = d <;> simp [Mem.write, h1, hb, Mem.read, Ne.symm hc]
    · by_cases h2 : a = k
      · subst h2
        by_cases hb : b = d <;> simp [Mem.write, hb, Mem.read, Ne.symm hc]
      · simp only [Mem.write, if_neg h1, if_neg h2, Mem.read, ih]

/-- Writing bytes leaves every place outside them alone. -/
theorem Mem.read_writeN_other {d : Byte} (bs : List Byte) {m : Mem} {a c : Nat} (hc : c < a ∨ a + bs.length ≤ c) :
    Mem.read d (Mem.writeN d m a bs) c = Mem.read d m c := by
  induction bs generalizing m a with
  | nil => rfl
  | cons b bs ih =>
    simp only [List.length_cons] at hc
    rw [Mem.writeN, ih (by omega), Mem.read_write_other b (by omega)]

/-! ## The CRC -/

/-- The bytes of a CRC-32 taken one by one, the register a numeral at every byte. -/
def crcForced : List Byte → Nat → Nat
  | [], n => n
  | b :: bs, 0 => crcForced bs (crcByte 0#32 b).toNat
  | b :: bs, n + 1 => crcForced bs (crcByte (BitVec.ofNat 32 (n + 1)) b).toNat

theorem crcForced_eq (bs : List Byte) (c : BitVec 32) : crcForced bs c.toNat = (bs.foldl crcByte c).toNat := by
  induction bs generalizing c with
  | nil => rfl
  | cons b bs ih =>
    rw [List.foldl_cons, ← ih]
    cases h : c.toNat with
    | zero => rw [show c = 0#32 from BitVec.eq_of_toNat_eq h]; rfl
    | succ n => rw [crcForced, ← h, BitVec.ofNat_toNat, BitVec.setWidth_eq]

/-- The CRC-32 in a form that the kernel evaluates quickly over long lists. -/
theorem crc32_forced (bs : List Byte) : crc32 bs = crcForced bs 0xFFFFFFFF ^^^ 0xFFFFFFFF := by
  rw [crc32, BitVec.toNat_xor, ← crcForced_eq]; rfl

end Sys2Proof.Machine
end

