-- ==== Sys2Proof/Laws/PerInstr.lean ====
section
/-! SUPPORT. Statements about every command, one lemma per constructor. -/

namespace Sys2Proof.Laws.NoWord

/-- The table gives the command's row no bits: no word of any width spells it. -/
def Statement (i : Instr) : Prop := ∀ nbits w, decodeTableWord nbits w ≠ some i

theorem resetAssert (low : ResetLow) (torn : TornOps) : Statement (.resetAssert low torn) := fun _ _ h => nomatch h
theorem resetRelease (env : MountEnv) : Statement (.resetRelease env) := fun _ _ h => nomatch h
theorem pcieLinkReset : Statement (.pcieLinkReset) := fun _ _ h => nomatch h
theorem exchangeTransferFault (why : XferFault) : Statement (.exchangeTransferFault why) := fun _ _ h => nomatch h
theorem readCompletionTimeout (what : TimeoutAt) : Statement (.readCompletionTimeout what) := fun _ _ h => nomatch h
theorem bufferTransferFailure (user : BufferUser) : Statement (.bufferTransferFailure user) := fun _ _ h => nomatch h
theorem exbaseWrite (high : Bool) (value : Reg) : Statement (.exbaseWrite high value) := fun _ _ h => nomatch h
theorem exctlConfig (value : Reg) (io : List Xfer) : Statement (.exctlConfig value io) := fun _ _ h => nomatch h
theorem portEnable (count : BitVec 7) (interval : Byte) (io : List Xfer) : Statement (.portEnable count interval io) := fun _ _ h => nomatch h
theorem portDisable (count : BitVec 7) (interval : Byte) : Statement (.portDisable count interval) := fun _ _ h => nomatch h
theorem wake (value : Reg) : Statement (.wake value) := fun _ _ h => nomatch h
theorem causeClear (value : Reg) : Statement (.causeClear value) := fun _ _ h => nomatch h
theorem causecfgWrite (value : Reg) : Statement (.causecfgWrite value) := fun _ _ h => nomatch h
theorem registerWriteOther (w : RegWrite) : Statement (.registerWriteOther w) := fun _ _ h => nomatch h
theorem scanTimerTick : Statement (.scanTimerTick) := fun _ _ h => nomatch h
theorem scan (io : List Xfer) : Statement (.scan io) := fun _ _ h => nomatch h
theorem completionWrite (io : List Xfer) : Statement (.completionWrite io) := fun _ _ h => nomatch h
theorem statusUpdate (io : List Xfer) : Statement (.statusUpdate io) := fun _ _ h => nomatch h
theorem keyswChange (level : Bool) : Statement (.keyswChange level) := fun _ _ h => nomatch h
theorem keyswDebounceExpiry : Statement (.keyswDebounceExpiry) := fun _ _ h => nomatch h
theorem secondsTick : Statement (.secondsTick) := fun _ _ h => nomatch h
theorem windowExpiry : Statement (.windowExpiry) := fun _ _ h => nomatch h
theorem stalenessExpiry (key : Key) : Statement (.stalenessExpiry key) := fun _ _ h => nomatch h
theorem openChangeover (head : SheetHead) (target : Byte) (window : Reg) : Statement (.openChangeover head target window) := fun _ _ h => nomatch h
theorem closeChangeover (head : SheetHead) : Statement (.closeChangeover head) := fun _ _ h => nomatch h
theorem abandonChangeover (head : SheetHead) : Statement (.abandonChangeover head) := fun _ _ h => nomatch h
theorem holdOut (head : SheetHead) (station : Byte) : Statement (.holdOut head station) := fun _ _ h => nomatch h
theorem restore (head : SheetHead) (station : Byte) : Statement (.restore head station) := fun _ _ h => nomatch h
theorem enrol : Statement (.enrol) := fun _ _ h => nomatch h
theorem commit : Statement (.commit) := fun _ _ h => nomatch h
theorem discard : Statement (.discard) := fun _ _ h => nomatch h
theorem revert : Statement (.revert) := fun _ _ h => nomatch h
theorem retire : Statement (.retire) := fun _ _ h => nomatch h
theorem readBaseline : Statement (.readBaseline) := fun _ _ h => nomatch h
theorem list (failsAt : Option Nat) : Statement (.list failsAt) := fun _ _ h => nomatch h
theorem clearPeaks : Statement (.clearPeaks) := fun _ _ h => nomatch h
theorem ruleLoad : Statement (.ruleLoad) := fun _ _ h => nomatch h
theorem ruleSetDelete : Statement (.ruleSetDelete) := fun _ _ h => nomatch h
theorem stationDefine : Statement (.stationDefine) := fun _ _ h => nomatch h
theorem stationUndefine : Statement (.stationUndefine) := fun _ _ h => nomatch h
theorem paramSet : Statement (.paramSet) := fun _ _ h => nomatch h
theorem formatStore : Statement (.formatStore) := fun _ _ h => nomatch h
theorem persistenceMarkWrite : Statement (.persistenceMarkWrite) := fun _ _ h => nomatch h
theorem erasePendingUnits : Statement (.erasePendingUnits) := fun _ _ h => nomatch h
theorem reclaimStep : Statement (.reclaimStep) := fun _ _ h => nomatch h
theorem snapshot : Statement (.snapshot) := fun _ _ h => nomatch h
theorem damagedReport : Statement (.damagedReport) := fun _ _ h => nomatch h
theorem check : Statement (.check) := fun _ _ h => nomatch h
theorem admission : Statement (.admission) := fun _ _ h => nomatch h
theorem captureComplete (lane : Lane) (host : List Host.Cell) : Statement (.captureComplete lane host) := fun _ _ h => nomatch h
theorem pageReadDone (bank : Bank) (errors : Nat) : Statement (.pageReadDone bank errors) := fun _ _ h => nomatch h
theorem pageProgramDone (bank : Bank) (outcome : ProgOutcome) : Statement (.pageProgramDone bank outcome) := fun _ _ h => nomatch h
theorem slotProgramDone (bank : Bank) (outcome : ProgOutcome) : Statement (.slotProgramDone bank outcome) := fun _ _ h => nomatch h
theorem eraseDone (bank : Bank) (outcome : EraseOutcome) : Statement (.eraseDone bank outcome) := fun _ _ h => nomatch h
theorem powerLoss (torn : TornOps) : Statement (.powerLoss torn) := fun _ _ h => nomatch h
theorem busMasteringSwitch (on : Bool) : Statement (.busMasteringSwitch on) := fun _ _ h => nomatch h
theorem enrolmentBufferReadDone (host : List Host.Cell) : Statement (.enrolmentBufferReadDone host) := fun _ _ h => nomatch h

end Sys2Proof.Laws.NoWord
end

