-- ==== Sys2Proof/WellFormed.lean ====
section
/-! DEFINITION. Which commands are well formed: operands inside the ranges the manual gives them. -/

namespace Sys2Proof

/-- Host addresses are 64-bit (R163). -/
def hostCellsWf (cells : List Host.Cell) : Bool := cells.all fun c => decide (c.1 < 2 ^ 64)

/-- A failed page or slot program leaves at most the bytes of its page or slot. -/
def progWf (size : Nat) : ProgOutcome → Bool
  | .done => true
  | .failed left => decide (left.length ≤ size)

/-- A failed erase leaves a mixture over at most the bytes of the unit. -/
def eraseWf : EraseOutcome → Bool
  | .done => true
  | .failed erased => decide (erased.length ≤ Config.unitBytes)

/-- What a torn operation leaves lies inside its page or unit. -/
def tornWf : Torn → Bool
  | .bytes left => decide (left.length ≤ Config.pageBytes)
  | .mixture erased => decide (erased.length ≤ Config.unitBytes)
  | .untouched => true
  | .whole => true

def tornOpsWf (t : TornOps) : Bool := tornWf t.even && tornWf t.odd

/-- What arrives during a transfer is well formed: a torn operation lies inside its page or unit. -/
def eventWf : Option BusEvent → Bool
  | some (.reset torn) => tornOpsWf torn
  | some (.disable _ _) => true
  | some .ask => true
  | none => true

/-- Every host write of a transfer list has a 64-bit address, and what arrives meanwhile is well formed. -/
def xfersWf (io : List Xfer) : Bool := io.all fun x => hostCellsWf x.host && eventWf x.event

/-- A key lies in the ranges of R1. -/
def keyWf (k : Key) : Bool := decide (k.station < 16) && decide (k.block < 64) && decide (k.format < 32)

/-- The reads of mount name pages of the store. -/
def mountWf (env : MountEnv) : Bool :=
  env.reads.all (fun r => decide (r.unit < Config.unitCount) && decide (r.page < Config.pagesPerUnit))
    && env.erases.all eraseWf && env.slots.all (progWf Config.slotBytes) && tornOpsWf env.torn

/-- A register write is 1, 2 or 4 bytes wide and lies in the window of eight registers (R139). -/
def regWriteWf (w : RegWrite) : Bool :=
  (w.width == 1 || w.width == 2 || w.width == 4) && decide (w.offset + w.width ≤ 32)

/-- A command is well formed when its operands lie in the ranges of the manual. -/
def WellFormed : Instr → Bool
  | .resetAssert _ torn => tornOpsWf torn
  | .resetRelease env => mountWf env
  | .exctlConfig _ io => xfersWf io
  | .portEnable _ _ io => xfersWf io
  | .registerWriteOther w => regWriteWf w
  | .scan io => xfersWf io
  | .completionWrite io => xfersWf io
  | .statusUpdate io => xfersWf io
  | .stalenessExpiry key => keyWf key
  | .list upTo => upTo.all fun n => decide (n ≤ Config.maxEntries)
  | .captureComplete _ host => hostCellsWf host
  | .pageProgramDone _ outcome => progWf Config.pageBytes outcome
  | .slotProgramDone _ outcome => progWf Config.slotBytes outcome
  | .eraseDone _ outcome => eraseWf outcome
  | .powerLoss torn => tornOpsWf torn
  | .enrolmentBufferReadDone host => hostCellsWf host
  | .pcieLinkReset => true
  | .exchangeTransferFault _ => true
  | .readCompletionTimeout _ => true
  | .bufferTransferFailure _ => true
  | .exbaseWrite _ _ => true
  | .portDisable _ _ => true
  | .wake _ => true
  | .causeClear _ => true
  | .causecfgWrite _ => true
  | .scanTimerTick => true
  | .keyswChange _ => true
  | .keyswDebounceExpiry => true
  | .secondsTick => true
  | .windowExpiry => true
  | .openChangeover _ _ _ => true
  | .closeChangeover _ => true
  | .abandonChangeover _ => true
  | .holdOut _ _ => true
  | .restore _ _ => true
  | .enrol => true
  | .commit => true
  | .discard => true
  | .revert => true
  | .retire => true
  | .readBaseline => true
  | .clearPeaks => true
  | .ruleLoad => true
  | .ruleSetDelete => true
  | .stationDefine => true
  | .stationUndefine => true
  | .paramSet => true
  | .formatStore => true
  | .persistenceMarkWrite => true
  | .erasePendingUnits => true
  | .reclaimStep => true
  | .snapshot => true
  | .damagedReport => true
  | .check => true
  | .admission => true
  | .pageReadDone _ _ => true
  | .busMasteringSwitch _ => true

end Sys2Proof
end

