-- ==== Sys2Proof/Tests/Slice0.lean ====
section
/-! SUPPORT. Small tests: well-formedness, values the manual gives, and for each statement of Obligations a state and operands that meet
its hypotheses together. -/

namespace Sys2Proof.Tests

open Sys2Proof.Machine

set_option Elab.async false

/-! ## Well-formedness refuses -/

theorem test_wf_reset_torn_too_long :
    WellFormed (.resetAssert .powerOn { even := .bytes (List.replicate 513 0#8), odd := .untouched }) = false := by decide +kernel
theorem test_wf_power_mixture_too_long :
    WellFormed (.powerLoss { even := .untouched, odd := .mixture (List.replicate 16385 true) }) = false := by decide +kernel
theorem test_wf_mount_unit : WellFormed (.resetRelease { MountEnv.smooth with reads := [⟨1024, 0, 7⟩] }) = false := by decide +kernel
theorem test_wf_mount_page : WellFormed (.resetRelease { MountEnv.smooth with reads := [⟨0, 32, 7⟩] }) = false := by decide +kernel
theorem test_wf_mount_slot :
    WellFormed (.resetRelease { MountEnv.smooth with slots := [.failed (List.replicate 129 0#8)] }) = false := by decide +kernel
theorem test_wf_mount_erase :
    WellFormed (.resetRelease { MountEnv.smooth with erases := [.failed (List.replicate 16385 true)] }) = false := by decide +kernel
theorem test_wf_xfer_address : WellFormed (.scan [{ host := [(2 ^ 64, 1#8)], result := .ok }]) = false := by decide +kernel
theorem test_wf_xfer_torn :
    WellFormed (.scan [{ host := [], result := .ok, event := some (.reset ⟨.bytes (List.replicate 513 0#8), .untouched⟩) }]) = false := by
  decide +kernel
theorem test_wf_config_address :
    WellFormed (.exctlConfig 0#32 [{ host := [(2 ^ 64, 1#8)], result := .ok }]) = false := by decide +kernel
theorem test_wf_enable_address :
    WellFormed (.portEnable 4#7 0#8 [{ host := [(2 ^ 64, 1#8)], result := .ok }]) = false := by decide +kernel
theorem test_wf_completion_address :
    WellFormed (.completionWrite [{ host := [(2 ^ 64, 1#8)], result := .ok }]) = false := by decide +kernel
theorem test_wf_status_address :
    WellFormed (.statusUpdate [{ host := [(2 ^ 64, 1#8)], result := .ok }]) = false := by decide +kernel
theorem test_wf_capture_address : WellFormed (.captureComplete .a [(2 ^ 64, 1#8)]) = false := by decide +kernel
theorem test_wf_enrol_address : WellFormed (.enrolmentBufferReadDone [(2 ^ 64, 1#8)]) = false := by decide +kernel
theorem test_wf_register_width : WellFormed (.registerWriteOther ⟨0, 3, 0#32⟩) = false := by decide +kernel
theorem test_wf_register_window : WellFormed (.registerWriteOther ⟨30, 4, 0#32⟩) = false := by decide +kernel
theorem test_wf_key : WellFormed (.stalenessExpiry ⟨16, 0, 0⟩) = false := by decide +kernel
theorem test_wf_list : WellFormed (.list (some 1025)) = false := by decide +kernel
theorem test_wf_page_program :
    WellFormed (.pageProgramDone .even (.failed (List.replicate 513 0#8))) = false := by decide +kernel
theorem test_wf_slot_program :
    WellFormed (.slotProgramDone .even (.failed (List.replicate 129 0#8))) = false := by decide +kernel
theorem test_wf_erase : WellFormed (.eraseDone .odd (.failed (List.replicate 16385 true))) = false := by decide +kernel

/-! ## Values the manual gives -/

/-- Conventions, CRC: the nine characters 1 to 9 give CBF43926h. -/
theorem test_crc_check_value : crc32 [0x31#8, 0x32#8, 0x33#8, 0x34#8, 0x35#8, 0x36#8, 0x37#8, 0x38#8, 0x39#8] = 0xCBF43926 := by
  decide +kernel
/-- Registers: IDENT, EXCTL and CAUSECFG after RESET#. -/
theorem test_registers_after_reset :
    readRegister Part.reset .ident = 0x31600001#32 ∧ readRegister Part.reset .exctl = 0x000A0400#32 ∧
    readRegister Part.reset .causecfg = 0x03E003FF#32 ∧ readRegister Part.reset .exstat = 0#32 := by decide +kernel

/-! ## The examples of Field Rules and The Comparison -/

/-- Rule set 7 of the filler block (Field Rules, the example). -/
def fillerRules : List FieldRule :=
  [{ lo := 0, hi := 0, mask := 0xFFFF#16, pat := 0#16, kind := .u32, policy := .exact },
   { lo := 4, hi := 4, mask := 0xFFFF#16, pat := 4#16, kind := .bcd16, policy := .watch },
   { lo := 22, hi := 16383, mask := 0x000F#16, pat := 6#16, kind := .s16, policy := .bandRel 15 2 },
   { lo := 40, hi := 40, mask := 0xFFFF#16, pat := 0x28#16, kind := .quad, policy := .exact },
   { lo := 6, hi := 15, mask := 0#16, pat := 0#16, kind := .u8, policy := .ignore },
   { lo := 6, hi := 16383, mask := 1#16, pat := 0#16, kind := .u16, policy := .track }]

/-- Field Rules, the example: 44 bytes give 25 fields, 2 uncovered bytes, 1 overrun; 48 give 25 fields and none uncovered. -/
theorem test_walk_of_the_filler :
    ((claimWalk fillerRules 44).1.length, (claimWalk fillerRules 44).2) = (27, 1) ∧
    (claimWalk fillerRules 44).1.countP (fun x => x.width == 1) = 12 ∧
    ((claimWalk fillerRules 48).1.length, (claimWalk fillerRules 48).2) = (25, 0) := by decide +kernel

/-- The Comparison, the example: 15200 allows 230; 220 uses 956 thousandths of it, −240 uses 1043 and fails. -/
theorem test_band_of_the_filler :
    allowance 15200 15 2 = 230 ∧ bandUsage 220 230 = 956 ∧ bandUsage (-240) 230 = 1043 ∧
    (Policy.bandRel 15 2).passes 15200 220 = true ∧ (Policy.bandRel 15 2).passes 15200 (-240) = false := by decide +kernel

/-- Field Rules, the example: bytes 3Bh 60h are 15200 in a BIG station and 24635 in a LITTLE one. -/
theorem test_byte_orders : fieldWord .big [0x3B#8, 0x60#8] 0 2 = 15200 ∧ fieldWord .little [0x3B#8, 0x60#8] 0 2 = 24635 := by
  decide +kernel

/-! ## Small states -/

def hd : SheetHead := { origin := 1#8, flags := 0#8, tag := 7#16 }

/-- A generation of the four bytes 01h to 04h. -/
def gen (number first : Nat) : Generation :=
  { number := number, unit := 24, first := first, pages := 1, length := 4, crc := crc32 [1#8, 2#8, 3#8, 4#8] }

/-- An entry of station 2, format 3. -/
def entryOf (uid block counter : Nat) (staged current previous : Option Generation) : Entry :=
  { uid := uid, key := { station := 2, block := block, format := 3 }, counter := counter, ruleSet := 7, staged := staged
    current := current, previous := previous, damaged := false, verdict := .conform, second := 100, epoch := 0
    bandPeak := .zero, trackPeak := .zero }

def inForce : Entry := entryOf 0 5 4 none (some (gen 3 0)) (some (gen 2 1))
def onlyStaged : Entry := entryOf 1 6 2 (some (gen 1 2)) none none
def stagedOver : Entry := entryOf 2 7 3 (some (gen 2 3)) (some (gen 1 4)) none

/-- A record unit with three slots, 23 empty ones, a FULL image unit, 7 FREE ones. -/
def smallUnits : List EraseUnit :=
  [{ EraseUnit.blank with mode := .record, pages := 1, slots := 3 }] ++ List.replicate 23 .blank
    ++ [{ EraseUnit.blank with mode := .image, pages := 5, cls := some .full, live := 5 }]
    ++ List.replicate 7 { EraseUnit.blank with cls := some .free }

def smallStore : Store :=
  { Store.blank with
    units := smallUnits, recordSize := some 24, flash := Mem.writeN flashBlank [] (24 * 16384) [1#8, 2#8, 3#8, 4#8] }

/-- A READY part in RUNNING(3), its port enabled, the key on, station 2 defined, rule set 7 loaded. -/
def ready : Part :=
  { Part.reset with
    pins := { powered := true, resetLow := false, keysw := true, mastering := true }
    device := .ready
    key := { level := true, running := false }
    line := { Line.reset with
      state := .running, active := some 3, seconds := 700, conform := true
      stations := modifyNth
        (fun x => { x with defined := true, state := .judged .conform, counts := { JudgedCounts.zero with conform := 2 } }) 2
        (List.replicate 16 .blank) }
    rules := putRuleSet (List.replicate 64 .absent) 7 (.loaded { unit := 24, first := 5, pages := 1, count := 6, crc := 0 } fillerRules)
    cat := { CatUnit.reset with entries := [inForce, onlyStaged, stagedOver], nextUid := 3, nextSeq := 10, writeUnit := some 0 }
    store := smallStore
    port := { Port.reset with
      state := .running, baseLo := 0x10000#32, enablement := some 0, nextEnable := 1
      bundles := List.replicate 64 { Bundle.reset with fresh := true } } }

/-- The machine with a part and nothing waiting. -/
def atRest (p : Part) : State := { part := p, pending := [] }

/-- A SUPERVISOR's request with the key on. -/
def asks (k : Kind) (params : List (Nat × List Byte)) : Request := requestOf (postedSheet k hd params) k 0 0 true 0

/-- The turn of a request of the catalogue queue. -/
def turnOf (r : Request) : State := atRest { ready with cat := { ready.cat with queue := [r] } }

def key265 : List (Nat × List Byte) := [(8, [2#8]), (9, [5#8]), (10, [3#8])]
def tornNot : TornOps := { even := .untouched, odd := .untouched }
def cellsAt (a : Nat) (bs : List Byte) : List Host.Cell := Mem.writeN hostBlank [] a bs
def withLine (f : Line → Line) : State := atRest { ready with line := f ready.line }
def withPort (f : Port → Port) : State := atRest { ready with port := f ready.port }
def withCat (f : CatUnit → CatUnit) : State := atRest (ready.withCat f)

/-- A lane of an ACTIVE CHECK of (2, 5), set up against generation 3. -/
def checkReq : Request := asks .check [(8, [2#8]), (9, [5#8]), (10, [0xFF#8]), (12, leBytes 4 4), (16, leBytes 8 0x6000)]
def checkSetup : LaneSetup := { entry := 0, key := inForce.key, gen := gen 3 0, resolved := 3, epoch := 0 }
def laneAt (st : LaneState) : LaneRegs :=
  { LaneRegs.reset with state := st, req := some checkReq, setup := some checkSetup, rules := fillerRules, pin := some 24 }
def withLane (x : LaneRegs) (s : Store) : State :=
  atRest { ready with engine := { Engine.reset with laneA := x }, store := s }
def readingLane : State :=
  withLane { laneAt .reading with capture := [1#8, 2#8, 3#8, 4#8] }
    { smallStore with bank0 := [{ client := .lane .a, op := .readPage 24 0 }] }

/-- A bank operation of the Catalogue Unit under way. -/
def underWay (op : BankOp) (w : CuAwait) (r : Request) : State :=
  atRest { ready with
    store := { smallStore with bank0 := [{ client := .catalogue, op := op }] }
    cat := { ready.cat with work := .request, req := some r, await := some w } }

/-- A slot program of unit 0 under way, every other record unit with so many slots programmed. -/
def repeatAhead (slots : Nat) : State :=
  let s := underWay (.programSlot 0 3 []) (.slot [.commitEnd] 10 .enrol)
    (asks .enrol [(8, [2#8]), (9, [63#8]), (10, [31#8]), (11, [7#8]), (12, leBytes 4 2), (16, leBytes 8 0x6000)])
  { s with part := s.part.withStore fun st =>
      { st with units := smallUnits.mapIdx fun u x => if 1 ≤ u ∧ u < 24 then { x with mode := .record, pages := 32, slots := slots } else x } }

/-- Unit 26 holds no live page and is pending. -/
def pendingStore : Store := smallStore.modify 26 fun x => { x with cls := some .full, pages := 3, mode := .image, pending := true }
/-- Nine empty record units are left. -/
def tightStore : Store :=
  { smallStore with
    units := smallUnits.mapIdx fun u x => if 1 ≤ u ∧ u ≤ 14 then { x with mode := .record, pages := 32, slots := 128 } else x }

def sheet00 : Nat := 0x11000
def oneDone : Completion :=
  { bundle := 0, sheet := 0, enablement := 0, quiet := false, code := .ok, result := some emptyResult, findings := none }
def onlyInForce (f : Line → Line) : State :=
  atRest { ready with cat := { ready.cat with entries := [inForce] }, line := f ready.line }

/-- An image's place, and the head request waiting for its own transfer. -/
def run25 : PageRun := { unit := 25, first := 0, pages := 1 }
def enrolReq : Request := asks .enrol [(8, [2#8]), (9, [63#8]), (10, [31#8]), (11, [7#8]), (12, leBytes 4 2), (16, leBytes 8 0x6000)]
def listReq : Request :=
  asks .list [(8, [0xFF#8]), (9, [0xFF#8]), (10, [3#8]), (12, leBytes 2 1), (14, leBytes 2 1024), (16, leBytes 8 0x6000)]
def readReq : Request :=
  asks .readBaseline [(8, [2#8]), (9, [5#8]), (10, [3#8]), (11, [3#8]), (12, leBytes 4 4), (16, leBytes 8 0x6000)]
def defineReq : Request := asks .stationDefine [(8, [15#8]), (9, [1#8]), (10, [2#8]), (12, List.replicate 8 0x7E#8)]
def admitReq : Request := { checkReq with kind := .admission, origin := 3#8 }
def awaiting (r : Request) (w : CuAwait) : State := withCat fun c => { c with work := .request, req := some r, await := some w }

/-- The slot program of the last of some records is under way, the image of the request placed. -/
def slotEnds (recs : List JournalRecord) (w : Writer) (r : Request) : State :=
  atRest ((underWay (.programSlot 0 3 []) (.slot recs 10 w) r).part.withCat fun c =>
    { c with run := some run25, buffer := [9#8, 0#8] })

/-- A transfer that goes through while a disable arrives, its taking after the completion. -/
def ranOff : Xfer := { host := [], result := .ok, event := some (.disable 7#8 false) }

/-- Completions: a QUIET one of sheet 7 with both areas, one of sheet 0 with neither. -/
def fullDone : Completion :=
  { bundle := 0, sheet := 7, enablement := 0, quiet := true, code := .ok, result := some (List.replicate 64 0xA5#8)
    findings := some (List.replicate 128 0x5A#8) }
def bareDone : Completion :=
  { bundle := 0, sheet := 0, enablement := 0, quiet := false, code := .badState, result := none, findings := none }

/-- A scan has been asked for, and the sheet at the cursor begins with some bytes. -/
def atCursor (bs : List Byte) : State :=
  atRest { ready with port := { ready.port with scanAsked := true }, host := cellsAt sheet00 bs }

/-- The cursor at sheet 7 of a bundle of four, bundle 0 fresh only while the cursor lies in it. -/
def atSheet7 (bundle : Nat) (bs : List Byte) : State :=
  atRest { ready with
    port :=
      { ready.port with
        scanAsked := true, count := 4, cursorB := bundle, cursorS := 7
        bundles := (List.range 64).map fun b => { Bundle.reset with fresh := b != 0 || bundle == 0, done := if b = bundle then 7 else 0 } }
    host := cellsAt (sheet00 + (8 * bundle + 7) * 256) bs }

/-- The premises that the clauses on a scan share. -/
def ScanTurn (s : State) (A : Nat) : Prop :=
  s.part.on = true ∧ s.part.port.live = true ∧ s.part.device ≠ .mounting ∧ s.part.port.scanAsked = true ∧
  s.part.pins.mastering = true ∧ (∀ b < s.part.port.count, (s.part.port.bundle b).done ≠ 8) ∧
  (s.part.port.bundle s.part.port.cursorB).fresh = true ∧ s.part.port.cursorS ≤ 7 ∧
  A = s.part.port.sheetAddress s.part.port.cursorB s.part.port.cursorS ∧
  s.part.port.sheetAddress s.part.port.cursorB 7 + 256 ≤ 2 ^ 64 ∧ Mem.wf hostBlank s.part.host = true

/-- Eight sheets of bundle 0 collected, its eighth completion written. -/
def collected : State :=
  atRest { ready with
    port := { ready.port with scanAsked := true, bundles := modifyNth (fun x => { x with fresh := false, done := 8 }) 0 ready.port.bundles }
    host := (List.range 8).foldl (fun m i => Mem.writeN hostBlank m (sheet00 + 256 * i) [4#8]) [] }

/-- Some bytes as memory cells, from an address on. -/
def cellsFrom : List Byte → Nat → List Host.Cell
  | [], _ => []
  | b :: bs, 0 => (0, b) :: cellsFrom bs 1
  | b :: bs, n + 1 => (n + 1, b) :: cellsFrom bs (n + 2)

/-- A store that carries SNAP_BEGIN 7, SNAP_END 8 and, as number 9, one entry; RESET# low over it. -/
def journalSlots : List ValidSlot :=
  [{ unit := 0, seq := 7, record := .snapBegin 24 }, { unit := 0, seq := 8, record := .snapEnd 0 },
   { unit := 0, seq := 9, record := .entry .change inForce.image }]
def journalItems : Replay := { Replay.start with entries := [inForce.image] }
def journalled : State :=
  atRest { Part.reset with
    pins := { powered := true, resetLow := true, keysw := true, mastering := true }
    store := { smallStore with
      recordSize := none
      flash := cellsFrom (journalSlots.flatMap fun v => slotEncode v.seq v.record) 0 } }

/-! ## The worked sequences -/

/-- The next state, where there is one. -/
def after (c : Instr) (s : State) : State :=
  match exec c s with
  | .next t => t
  | .fault _ => s
  | .refused _ => s

/-- R147, R148, R150: sheet 7 answered BAD_STATE and collected at once, the other seven COLLECTED: the bundle is wiped, and fresh again,
the cursor in the next. -/
theorem test_wipe_at_last_sheet :
    (after (.scan (List.replicate 3 { host := [], result := .ok } ++ [{ host := [(sheet00 + 7 * 256, 4#8)], result := .ok }]))
      (atRest ((List.range 7).foldl (fun p i => p.hostWrite (sheet00 + 256 * i) [4#8]) (atSheet7 0 [2#8]).part))).part.port.bundle 0 =
    { fresh := true, done := 0, wipes := 1 } := by decide +kernel

/-- Worked Sequences: OPEN_CHANGEOVER with 900 s at second 20000 under epoch 9 gives epoch 10 and deadline 20900, CONFORM off. -/
theorem test_open_changeover :
    (let t := after (.openChangeover hd 3#8 900#32) (withLine fun l => { l with seconds := 20000, epoch := 9 })
     (t.part.line.epoch, t.part.line.deadline, t.part.line.conform, t.part.isPending .conformLost))
      = (10, some 20900, false, true) := by decide +kernel

/-- Worked Sequences: a verdict renewed at second 20510 falls due at 21110 under the limit of 600 s. -/
theorem test_staleness_due : staleDue Line.reset { inForce with second := 20510 } = 21110 := by decide +kernel

/-- Worked Sequences: with 20 pages programmed in the open unit, a run of 4 pages is placed at page 20. -/
theorem test_placement :
    openRun { smallStore.modify 25 (fun x => { x with cls := some .opened, pages := 20 }) with openUnit := some 25 } 4
      = some { unit := 25, first := 20, pages := 4 } := by decide +kernel

/-- Worked Sequences: a snapshot at 4800 to 4889 whose SNAP_END carries 88 is complete and is chosen. -/
theorem test_snapshot_chosen :
    chooseSnapshot ([{ unit := 0, seq := 4800, record := .snapBegin 32 }]
      ++ (List.range 88).map (fun i => { unit := 0, seq := 4801 + i, record := .param Params.defaults })
      ++ [{ unit := 0, seq := 4889, record := .snapEnd 88 }]) = some (4800, 32) := by decide +kernel

/-- Worked Sequences: the group of a COMMIT is applied with its COMMIT_END, and not without it. -/
theorem test_commit_group :
    (([JournalRecord.commitBegin 3 1, .entry .change inForce.image, .commitEnd].foldl Replay.meet .start).entries.length,
     ([JournalRecord.commitBegin 3 1, .entry .change inForce.image, .param .defaults].foldl Replay.meet .start).entries.length)
      = (1, 0) := by decide +kernel

/-- Line Conformance: a window of 7201 s is clamped to 7200. -/
theorem test_window_clamped :
    (after (.openChangeover hd 3#8 7201#32) (atRest ready)).part.line.deadline = some 7900 := by decide +kernel

/-- Exchange: EXCTL written with a count of 127 takes 64. -/
theorem test_count_clamped :
    (after (.exctlConfig 0x00007F00#32 []) (withPort fun x => { x with state := .disabled })).part.port.count = 64 := by decide +kernel

/-- Attention: a CAUSE write of one bit removes that cause alone. -/
theorem test_cause_clear :
    (after (.causeClear 0x20#32) (atRest ((ready.raise .conformLost).raise .key))).part.att.pending = 0x10#10 := by decide +kernel

/-- The table gives no row any bits, so no word is a command. -/
theorem test_no_word : decodeTableWord 32 0 = none := rfl

/-! ## A state and operands that meet the hypotheses of each statement -/

theorem witness_StepRunsTheFrontCommand : ∃ (s : State) (c : Instr) (cs : List Instr), s.pending = c :: cs :=
  ⟨{ atRest ready with pending := [.wake 0#32] }, .wake 0#32, [], rfl⟩

theorem witness_StepRunsTheFrontCommand_empty : ∃ s : State, s.pending = [] := ⟨State.reset, rfl⟩

theorem witness_WalkCoversEveryByte :
    ∃ (rules : List FieldRule) (L : Nat) (before after : List Piece)
    (x : Piece), (claimWalk rules L).1 = before ++ x :: after :=
  ⟨fillerRules, 4, [], [], .claimed 0 0 (fillerRules.headD { lo := 0, hi := 0, mask := 0#16, pat := 0#16, kind := .u8, policy := .exact }),
    by decide +kernel⟩

theorem witness_PermitIsHonestAfterEveryStep : ∃ (s t : State), PermitHonest s ∧ step s = .next t :=
  ⟨{ atRest ready with pending := [.secondsTick] }, _, by unfold PermitHonest; decide +kernel, rfl⟩

theorem witness_GenerationOrderIsKept : ∃ (s t : State), (∀ env cs, s.pending ≠ .resetRelease env :: cs) ∧
    GenerationsOrdered s ∧ step s = .next t :=
  ⟨{ atRest ready with pending := [.secondsTick] }, _, (fun _ _ h => by simp at h), by unfold GenerationsOrdered Entry.ordered; decide +kernel, rfl⟩

theorem witness_KeysStayDistinct : ∃ (s t : State), KeysDistinct s ∧ step s = .next t :=
  ⟨{ atRest ready with pending := [.secondsTick] }, _, by unfold KeysDistinct; decide +kernel, rfl⟩

theorem witness_MemoriesStayCanonical : ∃ (s t : State), MemoriesCanonical s ∧ step s = .next t :=
  ⟨{ atRest ready with pending := [.secondsTick] }, _, by unfold MemoriesCanonical; decide +kernel, rfl⟩

theorem witness_QueuesAndTablesStayLegal : ∃ (s t : State), (QueuesBounded s ∧ PortLegal s ∧ TablesWhole s) ∧
    step s = .next t :=
  ⟨{ atRest ready with pending := [.secondsTick] }, _, by unfold QueuesBounded PortLegal TablesWhole; decide +kernel, rfl⟩

theorem witness_LosingConformIsRaised : ∃ (c : Instr) (s t : State), exec c s = .next t ∧ s.part.line.conform = true ∧
    t.part.line.conform = false ∧ t.part.on = true :=
  ⟨.stalenessExpiry inForce.key, onlyInForce id, _, rfl, by decide +kernel⟩

theorem witness_EpochMovesOnlyByLineRequest : ∃ (c : Instr) (s t : State), exec c s = .next t ∧
    (match c with
      | .openChangeover _ _ _ => False
      | .abandonChangeover _ => False
      | .scan _ => False
      | .resetAssert _ _ => False
      | .resetRelease _ => False
      | .powerLoss _ => False
      | .completionWrite io => io.all (fun x => !resetsDuring x) = true
      | .statusUpdate io => io.all (fun x => !resetsDuring x) = true
      | .portEnable _ _ io => io.all (fun x => !resetsDuring x) = true
      | .exctlConfig _ io => io.all (fun x => !resetsDuring x) = true
      | _ => True) :=
  ⟨.completionWrite [ranOff], withPort fun x => { x with completions := [oneDone] }, _, rfl, by decide +kernel⟩

theorem witness_LineChangeIsRaised : ∃ (c : Instr) (s t : State), exec c s = .next t ∧ (∀ env, c ≠ .resetRelease env) ∧
    t.part.on = true ∧
    (t.part.line.state ≠ s.part.line.state ∨ t.part.line.active ≠ s.part.line.active ∨ t.part.line.target ≠ s.part.line.target) :=
  ⟨.openChangeover hd 3#8 600#32, atRest ready, _, rfl, (fun _ h => by cases h), by decide +kernel⟩

theorem witness_RecordSlotRoundTrip : ∃ (seq : Nat) (r : JournalRecord), seq < 2 ^ 32 ∧ r.Fits :=
  ⟨2 ^ 32 - 1, .bad (List.replicate 16 1023), by decide, by unfold JournalRecord.Fits; decide +kernel⟩

theorem witness_RecordSlotRoundTrip_undefined : ∃ (seq n : Nat) (x : StationImage), seq < 2 ^ 32 ∧ n < 2 ^ 8 ∧ x.name.length = 8 ∧
    x.defined = false :=
  ⟨2 ^ 32 - 1, 255, { defined := false, order := .little, name := List.replicate 8 0x7E#8, heldOut := true }, by decide⟩

theorem witness_ImageConformsToItself : ∃ (rules : List FieldRule) (order : ByteOrder)
    (image : List Byte), screenImage order image (claimWalk rules image.length).1 = none ∧
    (∀ r ∈ rules, ∀ lo hi, r.policy = .bandAbs lo hi → lo ≤ 0 ∧ 0 ≤ hi) :=
  ⟨fillerRules, .big, List.replicate 48 0#8, by decide +kernel, fun r hr lo hi h => by
    simp only [fillerRules, List.mem_cons, List.not_mem_nil, or_false] at hr
    rcases hr with rfl | rfl | rfl | rfl | rfl | rfl <;> cases h⟩

theorem witness_AdmitGrantedExactlyWhen : ∃ (n : Notice), n.req.originValid = true :=
  ⟨{ req := checkReq, setup := none, resolved := none, removed := false, outcome := .code .transferError }, by decide +kernel⟩

theorem witness_ResetPulse : ∃ (s : State) (ns : Nat) (taken : Bool), s.part.on = true ∧ ((10000 ≤ ns ∨ (2000 ≤ ns ∧
    taken = true))) :=
  ⟨atRest ready, 10000, false, by decide +kernel⟩

theorem witness_ResetPulse_between : ∃ (s : State) (ns : Nat) (taken : Bool), s.part.on = true ∧ ((10000 ≤ ns ∨ (2000 ≤ ns ∧
    taken = true))) :=
  ⟨atRest ready, 2000, true, by decide +kernel⟩

theorem witness_ResetPulse_short : ∃ (s : State) (ns : Nat) (taken : Bool), s.part.on = true ∧ ((ns < 2000 ∨ (ns < 10000 ∧
    taken = false))) :=
  ⟨atRest ready, 1999, true, by decide +kernel⟩

theorem witness_ResetPulse_filtered : ∃ (s : State) (ns : Nat) (taken : Bool), s.part.on = true ∧ ((ns < 2000 ∨ (ns < 10000 ∧
    taken = false))) :=
  ⟨atRest ready, 9999, false, by decide +kernel⟩

theorem witness_PowerLossAndReturn : ∃ (s : State), s.part.pins.powered = true :=
  ⟨atRest ready, by decide +kernel⟩

theorem witness_ReleaseOverBlankStore : ∃ (s : State), s.part.pins.powered = true ∧ s.part.pins.resetLow = true ∧
    s.part.cat = CatUnit.reset ∧ s.part.store.bank0 = [] ∧ s.part.store.bank1 = [] ∧
    (∀ u < 64, (s.part.store.unit u).mode ≠ .record) :=
  ⟨State.reset, by decide +kernel⟩

/-- What mount finds in the store of the witness below. -/
theorem journalled_valid : allValid .smooth journalled.part.store = journalSlots := by
  show (List.range 64).flatMap (fun u => validSlots .smooth journalled.part.store u) = journalSlots
  simp only [validSlots, slotDecode, journalled, slotEncode, crc32_forced]
  decide +kernel

theorem witness_ReleaseOverBlankStore_ready : ∃ (s : State) (env : MountEnv) (found vs : List ValidSlot) (h begin R : Nat)
    (x : Replay), s.part.pins.powered = true ∧ s.part.pins.resetLow = true ∧ s.part.cat = CatUnit.reset ∧
    s.part.store.bank0 = [] ∧ s.part.store.bank1 = [] ∧ found = allValid env s.part.store ∧ h = highest found ∧
    chooseSnapshot found = some (begin, R) ∧ vs = found.filter (fun v => decide (v.unit < R)) ∧
    (∀ n, begin ≤ n → n ≤ h → recordAt vs n ≠ none) ∧
    x = ((List.range (h + 1 - begin)).filterMap fun i => recordAt vs (begin + i)).foldl Replay.meet Replay.start ∧
    (∀ u < R, isOldRecordUnit vs begin h (rebuild env R x s.part).store u = false) ∧
    dirtyUnits (rebuild env R x s.part).store = [] :=
  ⟨journalled, .smooth, journalSlots, journalSlots, 9, 7, 24, journalItems, by decide +kernel, by decide +kernel, by decide +kernel,
    by decide +kernel, by decide +kernel, journalled_valid.symm, by decide +kernel, by decide +kernel, by decide +kernel,
    fun n lo hi => by
      have : n = 7 ∨ n = 8 ∨ n = 9 := by omega
      rcases this with rfl | rfl | rfl <;> decide +kernel,
    by decide +kernel, by decide +kernel, by decide +kernel⟩

theorem witness_ReleaseOverBlankStore_chosen : ∃ (vs : List ValidSlot) (b R : Nat), chooseSnapshot vs = some (b, R) :=
  ⟨journalSlots, 7, 24, by decide +kernel⟩

theorem witness_ReleaseOverBlankStore_notChosen : ∃ (vs : List ValidSlot) (v : ValidSlot) (k : Nat), chooseSnapshot vs = none ∧
    v ∈ vs ∧ v.record = .snapBegin k :=
  ⟨[{ unit := 0, seq := 7, record := .snapBegin 24 }], { unit := 0, seq := 7, record := .snapBegin 24 }, 24, by decide +kernel⟩

theorem witness_ReleaseOverBlankStore_group : ∃ (x : Replay) (f : Nat) (es : List EntryImage) (group : List JournalRecord),
    x.group = none ∧ (∀ e ∈ es, e.key.format = f) ∧ group = .commitBegin f es.length :: es.map (.entry .change) :=
  ⟨.start, 3, [inForce.image, stagedOver.image], _, by decide +kernel, by decide +kernel, rfl⟩

theorem witness_BusMasteringOffHaltsTheNextTransfer : ∃ (s : State), s.part.on = true ∧ s.part.port.live = true ∧
    s.part.port.changed ≠ [] ∧ s.part.pins.mastering = false :=
  ⟨atRest { ready with pins := { ready.pins with mastering := false }, port := { ready.port with changed := [.device] } }, by decide +kernel⟩

theorem witness_ExchangeFaultHalts : ∃ (s : State), s.part.on = true ∧ s.part.port.live = true :=
  ⟨atRest ready, by decide +kernel⟩

theorem witness_CaptureFailureEndsTheCheck : ∃ (s : State) (l : Lane) (r : Request) (u : Nat), s.part.on = true ∧
    (s.part.engine.lane l).state = .capturing ∧ (s.part.engine.lane l).req = some r ∧ (r.kind = .check ∨ r.kind = .admission) ∧
    (s.part.engine.lane l).pin = some u ∧ u < s.part.store.units.length :=
  ⟨withLane (laneAt .capturing) smallStore, .a, checkReq, 24, by decide +kernel⟩

theorem witness_CaptureFailureEndsTheCheck_admit : ∃ (s : State) (l : Lane) (r : Request) (u : Nat), s.part.on = true ∧
    (s.part.engine.lane l).state = .capturing ∧ (s.part.engine.lane l).req = some r ∧ (r.kind = .check ∨ r.kind = .admission) ∧
    (s.part.engine.lane l).pin = some u ∧ u < s.part.store.units.length :=
  ⟨withLane { laneAt .capturing with req := some admitReq } smallStore, .a, admitReq, 24, by decide +kernel⟩

theorem witness_CaptureFailureEndsTheCheck_hostRead : ∃ (s : State) (r : Request), s.part.on = true ∧ s.part.cat.req = some r ∧
    s.part.cat.await = some .hostRead :=
  ⟨awaiting enrolReq .hostRead, enrolReq, by decide +kernel⟩

theorem witness_CaptureFailureEndsTheCheck_listing : ∃ (s : State) (r : Request) (n : Nat), s.part.on = true ∧
    s.part.cat.req = some r ∧ s.part.cat.await = some (.listing n) :=
  ⟨awaiting listReq (.listing 1), listReq, 1, by decide +kernel⟩

theorem witness_CaptureFailureEndsTheCheck_readBack : ∃ (s : State) (r : Request) (i : Nat), s.part.on = true ∧
    s.part.cat.req = some r ∧ s.part.cat.await = some (.readBack i) ∧ s.part.cat.todo = [] :=
  ⟨awaiting readReq (.readBack 0), readReq, 0, by decide +kernel⟩

theorem witness_BaseRegisterWrites : ∃ s : State, s.part.on = true ∧ s.part.port.state = .disabled :=
  ⟨withPort fun x => { x with state := .disabled }, by decide +kernel⟩

theorem witness_BaseRegisterWrites_ignored : ∃ (s : State), s.part.on = true ∧ s.part.port.state ≠ .disabled :=
  ⟨atRest ready, by decide +kernel⟩

theorem witness_ExctlConfiguration : ∃ (s : State) (v : Reg), s.part.on = true ∧ s.part.port.state = .disabled ∧
    v.getLsbD 0 = false :=
  ⟨withPort fun x => { x with state := .disabled }, 0x00017F00#32, by decide +kernel⟩

theorem witness_ExctlConfiguration_live : ∃ (s : State) (v : Reg), s.part.on = true ∧ s.part.port.live = true ∧
    v.getLsbD 0 = true :=
  ⟨atRest ready, 0x00000001#32, by decide +kernel⟩

theorem witness_ExctlConfiguration_halted : ∃ (s : State) (v : Reg), s.part.on = true ∧ s.part.port.state = .halted ∧
    v.getLsbD 0 = true :=
  ⟨withPort fun x => { x with state := .halted }, 0x00FF0001#32, by decide +kernel⟩

theorem witness_EnableBeginsAnEnablement : ∃ (s : State), s.part.on = true ∧ s.part.port.state = .disabled ∧
    s.part.pins.mastering = true ∧ s.part.port.base + 4096 ≤ 2 ^ 64 ∧ Mem.wf hostBlank s.part.host = true ∧
    (∀ x ∈ s.part.line.stations, x.name.length = 8) :=
  ⟨withPort fun x => { x with state := .disabled }, by decide +kernel⟩

theorem witness_DisableEndsTheEnablement : ∃ (s : State), s.part.on = true ∧ s.part.port.state ≠ .disabled :=
  ⟨atRest ready, by decide +kernel⟩

theorem witness_WakeAndTickAskForAScan : ∃ (s : State) (n : Nat), s.part.on = true ∧ s.part.port.live = true ∧
    s.part.device ≠ .mounting ∧ s.part.port.timer = some n :=
  ⟨withPort fun x => { x with timer := some 1 }, 1, by decide +kernel⟩

theorem witness_WakeAndTickAskForAScan_ignored : ∃ (s : State), s.part.on = true ∧ s.part.port.live = false :=
  ⟨withPort fun x => { x with state := .halted }, by decide +kernel⟩

theorem witness_CauseWriteClears : ∃ (s : State), s.part.on = true :=
  ⟨atRest ready, by decide +kernel⟩

theorem witness_CausecfgWriteReplaces : ∃ (s : State), s.part.on = true :=
  ⟨atRest ready, by decide +kernel⟩

theorem witness_RegisterWritesByOffset : ∃ (s : State)
    (w : RegWrite), (s.part.on = false ∨ w.width ≠ 4 ∨ w.offset = 0x00 ∨ w.offset = 0x04) :=
  ⟨atRest ready, { offset := 8, width := 2, value := 0#32 }, by decide +kernel⟩

theorem witness_RegisterWritesByOffset_whole : ∃ (w : RegWrite), w.width = 4 :=
  ⟨{ offset := 8, width := 4, value := 0#32 }, by decide +kernel⟩

theorem witness_RegisterWritesByOffset_read : ∃ (offset width : Nat), offset + width ≤ 32 := ⟨31, 1, by decide⟩

theorem witness_ScanEndsAtBlankOrUnfresh : ∃ (s : State), s.part.on = true ∧ s.part.port.live = true ∧
    s.part.device ≠ .mounting ∧ s.part.port.scanAsked = true ∧ s.part.pins.mastering = true ∧
    (∀ b < s.part.port.count, (s.part.port.bundle b).done ≠ 8) ∧ (s.part.port.bundle s.part.port.cursorB).fresh = true ∧
    s.part.port.sheetAddress s.part.port.cursorB s.part.port.cursorS + 256 ≤ 2 ^ 64 ∧
    s.part.hostRead (s.part.port.sheetAddress s.part.port.cursorB s.part.port.cursorS) 1 = [0x00#8] :=
  ⟨withPort fun x => { x with scanAsked := true }, by decide +kernel⟩

theorem witness_ScanEndsAtBlankOrUnfresh_unfresh : ∃ (s : State), s.part.on = true ∧ s.part.port.live = true ∧
    s.part.device ≠ .mounting ∧ s.part.port.scanAsked = true ∧ s.part.pins.mastering = true ∧
    (∀ b < s.part.port.count, (s.part.port.bundle b).done ≠ 8) ∧ (s.part.port.bundle s.part.port.cursorB).fresh = false :=
  ⟨withPort fun x => { x with scanAsked := true, bundles := Port.reset.bundles }, by decide +kernel⟩

theorem witness_ScanTakesAPostedCheck : ∃ (s : State) (A : Nat) (kind : Kind) (code : Nat), ScanTurn s A ∧
    kindOfCode code = some kind ∧ s.part.hostRead A 2 = 0x01#8 :: leBytes 1 code ∧ EndsAfterSheet s.part ∧
    kind.owner ≠ .lineController ∧ ownerHasRoom s.part kind.owner = true :=
  ⟨atCursor [1#8, 1#8], sheet00, .check, 1, by unfold ScanTurn EndsAfterSheet; decide +kernel⟩

theorem witness_ScanTakesAPostedCheck_catalogue : ∃ (s : State) (A : Nat) (kind : Kind) (code : Nat), ScanTurn s A ∧
    kindOfCode code = some kind ∧ s.part.hostRead A 2 = 0x01#8 :: leBytes 1 code ∧ EndsAfterSheet s.part ∧
    kind.owner ≠ .lineController ∧ ownerHasRoom s.part kind.owner = true :=
  ⟨{ atCursor [1#8, BitVec.ofNat 8 Kind.list.code] with part := ((atCursor [1#8, BitVec.ofNat 8 Kind.list.code]).part.withCat fun c =>
      { c with queue := List.replicate 3 listReq }) }, sheet00, .list, Kind.list.code, by unfold ScanTurn EndsAfterSheet; decide +kernel⟩

theorem witness_ScanTakesAPostedCheck_full : ∃ (s : State) (A : Nat) (kind : Kind) (code : Nat), ScanTurn s A ∧
    kindOfCode code = some kind ∧ s.part.hostRead A 2 = 0x01#8 :: leBytes 1 code ∧
    ((kind.owner = .checkQueue ∧ 12 ≤ s.part.engine.queue.length) ∨ (kind.owner = .catalogueQueue ∧ 4 ≤ s.part.cat.queue.length)) :=
  ⟨atRest { (atCursor [1#8, 1#8]).part with engine := { Engine.reset with queue := List.replicate 12 checkReq } }, sheet00, .check, 1,
    by unfold ScanTurn; decide +kernel⟩

theorem witness_ScanTakesAPostedCheck_catalogueFull : ∃ (s : State) (A : Nat) (kind : Kind) (code : Nat), ScanTurn s A ∧
    kindOfCode code = some kind ∧ s.part.hostRead A 2 = 0x01#8 :: leBytes 1 code ∧
    ((kind.owner = .checkQueue ∧ 12 ≤ s.part.engine.queue.length) ∨ (kind.owner = .catalogueQueue ∧ 4 ≤ s.part.cat.queue.length)) :=
  ⟨{ atCursor [1#8, BitVec.ofNat 8 Kind.list.code] with part := ((atCursor [1#8, BitVec.ofNat 8 Kind.list.code]).part.withCat fun c =>
      { c with queue := List.replicate 4 listReq }) }, sheet00, .list, Kind.list.code, by unfold ScanTurn; decide +kernel⟩

theorem witness_ScanTakesAPostedCheck_badState : ∃ (s : State) (A : Nat) (state : Byte) (code : Nat) (quiet : Bool), ScanTurn s A ∧
    s.part.hostRead A 1 = [state] ∧ EndsAfterSheet s.part ∧
    ((state ≠ 0x00#8 ∧ state ≠ 0x01#8 ∧ code = 0x17 ∧ quiet = false) ∨
      (state = 0x01#8 ∧ kindOfCode (leNat (s.part.hostRead (A + 1) 1)) = none ∧ code = 0x16 ∧
        quiet = (Mem.read hostBlank s.part.host (A + 3)).getLsbD 0)) ∧
    s.part.port.completions = [] ∧ s.part.port.changed = [] ∧
    s.part.port.enablement ≠ none ∧ s.part.port.cursorB < s.part.port.bundles.length :=
  ⟨atCursor [2#8], sheet00, 2#8, 0x17, false, by unfold ScanTurn EndsAfterSheet; decide +kernel⟩

theorem witness_ScanTakesAPostedCheck_badKind : ∃ (s : State) (A : Nat) (state : Byte) (code : Nat) (quiet : Bool), ScanTurn s A ∧
    s.part.hostRead A 1 = [state] ∧ EndsAfterSheet s.part ∧
    ((state ≠ 0x00#8 ∧ state ≠ 0x01#8 ∧ code = 0x17 ∧ quiet = false) ∨
      (state = 0x01#8 ∧ kindOfCode (leNat (s.part.hostRead (A + 1) 1)) = none ∧ code = 0x16 ∧
        quiet = (Mem.read hostBlank s.part.host (A + 3)).getLsbD 0)) ∧
    s.part.port.completions = [] ∧ s.part.port.changed = [] ∧
    s.part.port.enablement ≠ none ∧ s.part.port.cursorB < s.part.port.bundles.length :=
  ⟨atCursor [1#8, 0#8, 1#8, 1#8], sheet00, 1#8, 0x16, true, by unfold ScanTurn EndsAfterSheet; decide +kernel⟩

theorem witness_ScanTakesAPostedCheck_disable : ∃ (s : State) (A : Nat) (kind : Kind) (code : Nat), ScanTurn s A ∧
    kindOfCode code = some kind ∧ s.part.hostRead A 2 = 0x01#8 :: leBytes 1 code ∧ kind.owner ≠ .lineController ∧
    ownerHasRoom s.part kind.owner = true :=
  ⟨atCursor [1#8, 2#8], sheet00, .admission, 2, by unfold ScanTurn; decide +kernel⟩

theorem witness_ScanTakesAPostedCheck_reset : ∃ (s : State) (A : Nat) (kind : Kind) (code : Nat), ScanTurn s A ∧
    kindOfCode code = some kind ∧ s.part.hostRead A 2 = 0x01#8 :: leBytes 1 code ∧ ownerHasRoom s.part kind.owner = true :=
  ⟨atCursor [1#8, BitVec.ofNat 8 Kind.holdOut.code], sheet00, .holdOut, Kind.holdOut.code, by unfold ScanTurn; decide +kernel⟩

theorem witness_ScanTakesAPostedCheck_lastSheet : ∃ (s : State) (A : Nat) (kind : Kind) (code : Nat), ScanTurn s A ∧
    kindOfCode code = some kind ∧ s.part.hostRead A 2 = 0x01#8 :: leBytes 1 code ∧ EndsAfterSheet s.part ∧
    kind.owner ≠ .lineController ∧ ownerHasRoom s.part kind.owner = true ∧ s.part.port.cursorS = 7 ∧
    s.part.port.stateAfterSheet = .running :=
  ⟨atSheet7 0 [1#8, 1#8], sheet00 + 7 * 256, .check, 1, by unfold ScanTurn EndsAfterSheet; decide +kernel⟩

theorem witness_ScanTakesAPostedCheck_lastBundle : ∃ (s : State) (A : Nat) (kind : Kind) (code : Nat), ScanTurn s A ∧
    kindOfCode code = some kind ∧ s.part.hostRead A 2 = 0x01#8 :: leBytes 1 code ∧ EndsAfterSheet s.part ∧
    kind.owner ≠ .lineController ∧ ownerHasRoom s.part kind.owner = true ∧ s.part.port.cursorS = 7 ∧
    s.part.port.pastSheet.cursorB = 0 ∧ s.part.port.stateAfterSheet = .waiting :=
  ⟨atSheet7 3 [1#8, 1#8], sheet00 + 31 * 256, .check, 1, by unfold ScanTurn EndsAfterSheet; decide +kernel⟩

theorem witness_ScanTakesAPostedCheck_badLast : ∃ (s : State) (A : Nat) (state : Byte) (code : Nat) (quiet : Bool), ScanTurn s A ∧
    s.part.hostRead A 1 = [state] ∧ EndsAfterSheet s.part ∧
    ((state ≠ 0x00#8 ∧ state ≠ 0x01#8 ∧ code = 0x17 ∧ quiet = false) ∨
      (state = 0x01#8 ∧ kindOfCode (leNat (s.part.hostRead (A + 1) 1)) = none ∧ code = 0x16 ∧
        quiet = (Mem.read hostBlank s.part.host (A + 3)).getLsbD 0)) ∧
    s.part.port.completions = [] ∧ s.part.port.changed = [] ∧
    s.part.port.enablement ≠ none ∧ s.part.port.cursorB < s.part.port.bundles.length ∧ s.part.port.cursorS = 7 :=
  ⟨atSheet7 0 [2#8], sheet00 + 7 * 256, 2#8, 0x17, false, by unfold ScanTurn EndsAfterSheet; decide +kernel⟩

theorem witness_CompletionIsWrittenOrDropped_dropped : ∃ (s : State) (c : Completion) (cs : List Completion)
    (A : Nat), s.part.on = true ∧ s.part.port.completions = c :: cs ∧ A = s.part.port.sheetAddress c.bundle c.sheet ∧
    s.part.port.enablement ≠ some c.enablement :=
  ⟨withPort fun x => { x with completions := [{ oneDone with enablement := 1 }] }, { oneDone with enablement := 1 }, [], sheet00, by decide +kernel⟩

theorem witness_CompletionIsWrittenOrDropped : ∃ (s : State) (c : Completion) (cs : List Completion) (A : Nat), s.part.on = true ∧
    s.part.port.completions = c :: cs ∧ A = s.part.port.sheetAddress c.bundle c.sheet ∧ s.part.port.enablement = some c.enablement ∧
    s.part.pins.mastering = true ∧ c.sheet < 8 ∧ s.part.port.sheetAddress c.bundle 7 + 256 ≤ 2 ^ 64 ∧
    Mem.wf hostBlank s.part.host = true ∧ s.part.port.changed = [] ∧ (∀ area, c.result = some area → area.length = 64) ∧
    (∀ area, c.findings = some area → area.length = 128) ∧ c.bundle < s.part.port.bundles.length :=
  ⟨withPort fun x => { x with completions := [fullDone] }, fullDone, [], sheet00 + 7 * 256, by decide +kernel, rfl, by decide +kernel,
    by decide +kernel, by decide +kernel, by decide +kernel, by decide +kernel, by decide +kernel, by decide +kernel,
    fun _ h => by cases h; decide +kernel, fun _ h => by cases h; decide +kernel, by decide +kernel⟩

theorem witness_CompletionIsWrittenOrDropped_eighth : ∃ (s : State) (c : Completion) (cs : List Completion) (A : Nat),
    s.part.on = true ∧ s.part.port.completions = c :: cs ∧ A = s.part.port.sheetAddress c.bundle c.sheet ∧
    s.part.port.enablement = some c.enablement ∧ s.part.pins.mastering = true ∧ c.sheet < 8 ∧
    s.part.port.sheetAddress c.bundle 7 + 256 ≤ 2 ^ 64 ∧ Mem.wf hostBlank s.part.host = true ∧ s.part.port.changed = [] ∧
    (∀ area, c.result = some area → area.length = 64) ∧ (∀ area, c.findings = some area → area.length = 128) ∧
    c.bundle < s.part.port.bundles.length ∧ (s.part.port.bundle c.bundle).done = 7 :=
  ⟨withPort fun x => { x with completions := [bareDone], bundles := List.replicate 64 { Bundle.reset with fresh := true, done := 7 } },
    bareDone, [], sheet00, by decide +kernel, rfl, by decide +kernel,
    by decide +kernel, by decide +kernel, by decide +kernel, by decide +kernel, by decide +kernel, by decide +kernel,
    (fun _ h => by cases h), (fun _ h => by cases h), by decide +kernel, by decide +kernel⟩

theorem witness_CompletionIsWrittenOrDropped_wipe : ∃ (s : State) (B : Nat), s.part.on = true ∧ s.part.port.live = true ∧
    s.part.device ≠ .mounting ∧ s.part.port.scanAsked = true ∧ s.part.pins.mastering = true ∧ B = s.part.port.cursorB ∧
    B < s.part.port.count ∧ B < s.part.port.bundles.length ∧ s.part.port.cursorS < 8 ∧ (s.part.port.bundle B).done = 8 ∧
    (∀ b < s.part.port.count, b ≠ B → (s.part.port.bundle b).done ≠ 8) ∧
    (∀ i < 8, s.part.hostRead (s.part.port.sheetAddress B i) 1 = [0x04#8]) ∧ s.part.port.sheetAddress B 7 + 256 ≤ 2 ^ 64 ∧
    Mem.wf hostBlank s.part.host = true :=
  ⟨collected, 0, by decide +kernel⟩

theorem witness_CompletionIsWrittenOrDropped_wipeCut : ∃ (s : State) (B k : Nat) (first : Bool), s.part.on = true ∧
    s.part.port.live = true ∧ s.part.device ≠ .mounting ∧ s.part.port.scanAsked = true ∧ s.part.pins.mastering = true ∧
    B = s.part.port.cursorB ∧ B < s.part.port.count ∧ B < s.part.port.bundles.length ∧ s.part.port.cursorS < 8 ∧
    (s.part.port.bundle B).done = 8 ∧ (∀ b < s.part.port.count, b ≠ B → (s.part.port.bundle b).done ≠ 8) ∧
    (∀ i < 8, s.part.hostRead (s.part.port.sheetAddress B i) 1 = [0x04#8]) ∧ s.part.port.sheetAddress B 7 + 256 ≤ 2 ^ 64 ∧
    Mem.wf hostBlank s.part.host = true ∧ k < 8 ∧ (k < 7 ∨ first = true) ∧ (s.part.port.bundle B).fresh = false :=
  ⟨collected, 0, 7, true, by decide +kernel⟩

theorem witness_StatusUpdateWritesTheItem : ∃ (s : State) (i : StatusItem), s.part.on = true ∧ s.part.port.live = true ∧
    s.part.pins.mastering = true ∧ s.part.port.changed = [i] ∧ s.part.port.base + 4096 ≤ 2 ^ 64 ∧
    i.offset + (s.part.port.copy.bytes i).length ≤ 4096 ∧ Mem.wf hostBlank s.part.host = true :=
  ⟨withPort fun x => { x with changed := [.wipes 63] }, .wipes 63, by decide +kernel⟩

theorem witness_KeySwitchDebounce : ∃ (s : State) (level : Bool), s.part.on = true ∧ level ≠ s.part.pins.keysw :=
  ⟨atRest ready, false, by decide +kernel⟩

theorem witness_KeySwitchDebounce_expiry : ∃ (s : State), s.part.on = true ∧ s.part.key.running = true :=
  ⟨atRest { ready with key := { level := false, running := true } }, by decide +kernel⟩

theorem witness_SecondsRise : ∃ (s : State), s.part.on = true :=
  ⟨withLine fun l => { l with seconds := 0xFFFFFFFF }, by decide +kernel⟩

theorem witness_WindowExpiryEntersRunning : ∃ (s : State) (d : Nat), s.part.on = true ∧
    (s.part.line.state = .changeover ∨ s.part.line.state = .settling) ∧ s.part.line.deadline = some d ∧
    d ≤ s.part.line.seconds :=
  ⟨withLine fun l => { l with state := .settling, target := some 4, deadline := some 700 }, 700, by decide +kernel⟩

theorem witness_VerdictGoesStale : ∃ (s : State) (e : Entry), s.part.on = true ∧ s.part.line.state = .running ∧
    e ∈ s.part.cat.entries ∧ (e.verdict = .conform ∨ e.verdict = .tolerated) ∧
    e.second + s.part.line.params.staleness ≤ s.part.line.seconds ∧ KeysDistinct s :=
  ⟨atRest ready, inForce, by unfold KeysDistinct; decide +kernel⟩

theorem witness_OpenChangeoverOpens : ∃ (s : State) (head : SheetHead) (target : Byte), LineTurn s head ∧
    s.part.key.level = true ∧ target.toNat ≤ 30 ∧ (s.part.line.state = .running ∨ s.part.line.state = .noFormat) ∧
    s.part.line.epoch < 0xFFFFFFFE ∧ (∃ e ∈ s.part.cat.entries, e.key.format = target.toNat ∧ e.current ≠ none) :=
  ⟨withLine fun l => { l with epoch := 0xFFFFFFFD }, hd, 3#8, by unfold LineTurn; decide +kernel⟩

theorem witness_CloseChangeoverCloses : ∃ (s : State) (head : SheetHead) (G : Nat), LineTurn s head ∧
    s.part.line.state = .changeover ∧ s.part.line.target = some G ∧ (requiredSet s.part G ≠ [] ∧
    (∀ x ∈ s.part.line.stations, x.state.passing = true)) :=
  ⟨onlyInForce fun l => { l with state := .changeover, target := some 3, deadline := some 900 }, hd, 3, by unfold LineTurn; decide +kernel⟩

theorem witness_CloseChangeoverCloses_settling : ∃ (s : State) (head : SheetHead) (G : Nat), LineTurn s head ∧
    s.part.line.state = .changeover ∧ s.part.line.target = some G ∧
    (requiredSet s.part G = [] ∨ (∃ x ∈ s.part.line.stations, x.state.passing = false)) :=
  ⟨onlyInForce fun l => { l with state := .changeover, target := some 4, deadline := some 900 }, hd, 4, by unfold LineTurn; decide +kernel⟩

theorem witness_AbandonChangeoverReturns : ∃ (s : State) (head : SheetHead), LineTurn s head ∧
    (s.part.line.state = .changeover ∨ s.part.line.state = .settling) :=
  ⟨withLine fun l => { l with state := .settling, target := some 4, deadline := some 900 }, hd, by unfold LineTurn; decide +kernel⟩

theorem witness_HoldOutAndRestore : ∃ (s : State) (head : SheetHead) (n : Byte), LineTurn s head ∧ s.part.key.level = true ∧
    n.toNat ≤ 15 ∧ n.toNat < s.part.line.stations.length ∧ (s.part.line.station n.toNat).defined = true ∧
    (s.part.line.station n.toNat).heldOut = false :=
  ⟨atRest ready, hd, 2#8, by unfold LineTurn; decide +kernel⟩

theorem witness_HoldOutAndRestore_restore : ∃ (s : State) (head : SheetHead) (n : Byte), LineTurn s head ∧
    s.part.key.level = true ∧ n.toNat ≤ 15 ∧ n.toNat < s.part.line.stations.length ∧
    (s.part.line.station n.toNat).defined = true ∧ (s.part.line.station n.toNat).heldOut = true :=
  ⟨atRest (ready.modifyStation 2 fun x => { x with heldOut := true }), hd, 2#8, by unfold LineTurn; decide +kernel⟩

theorem witness_EnrolBegins : ∃ (s : State) (r : Request) (rest : List Request), RequestTurn s r rest ∧ r.kind = .enrol ∧
    Admitted s r ∧ keyInRange r.key = true ∧ (s.part.line.station r.key.station).defined = true ∧ r.enrolRuleSet ≤ 63 ∧
    (ruleSetAt s.part.rules r.enrolRuleSet).isLoaded = true ∧ 2 ≤ r.length ∧ r.length ≤ 16384 ∧ r.length % 2 = 0 ∧
    r.address % 8 = 0 ∧
    (match findKey s.part.cat.entries r.key with | some e => e.counter < 0xFFFFFFFF | none => s.part.cat.entries.length < 1024) :=
  ⟨turnOf (asks .enrol [(8, [2#8]), (9, [63#8]), (10, [31#8]), (11, [7#8]), (12, leBytes 4 2), (16, leBytes 8 0x6000)]), asks .enrol [(8, [2#8]), (9, [63#8]), (10, [31#8]), (11, [7#8]), (12, leBytes 4 2), (16, leBytes 8 0x6000)], [], by unfold RequestTurn; decide +kernel, by decide +kernel, by unfold Admitted; decide +kernel,
    by decide +kernel, by decide +kernel, by decide +kernel, by decide +kernel, by decide +kernel, by decide +kernel, by decide +kernel,
    by decide +kernel, show ready.cat.entries.length < 1024 by decide +kernel⟩

theorem witness_EnrolImageIsPlaced : ∃ (s : State) (host : List Host.Cell) (r : Request) (run : PageRun) (placed : Store)
    (image : List Byte), s.part.on = true ∧ s.part.cat.await = some .hostRead ∧ s.part.cat.req = some r ∧ r.kind = .enrol ∧
    s.part.port.enablement = some r.enablement ∧ s.part.pins.mastering = true ∧ r.address + r.length ≤ 2 ^ 64 ∧
    image = Mem.readN hostBlank (Mem.apply hostBlank s.part.host host) r.address r.length ∧
    screenImage s.part.cat.order image (claimWalk (ruleSetAt s.part.rules r.enrolRuleSet).rules image.length).1 = none ∧
    placeRun s.part.store (pagesFor image.length) = (some run, placed) :=
  ⟨withCat fun c => { c with work := .request, req := some (asks .enrol [(8, [2#8]), (9, [63#8]), (10, [31#8]), (11, [7#8]), (12, leBytes 4 2), (16, leBytes 8 0x6000)]), await := some .hostRead }, [(0x6000, 9#8)], asks .enrol [(8, [2#8]), (9, [63#8]), (10, [31#8]), (11, [7#8]), (12, leBytes 4 2), (16, leBytes 8 0x6000)], { unit := 25, first := 0, pages := 1 }, (placeRun smallStore 1).2, [9#8, 0#8], by decide +kernel⟩

theorem witness_CommitAndDiscardBegin_commit_none : ∃ (s : State) (r : Request) (rest : List Request), RequestTurn s r rest ∧
    Admitted s r ∧ r.format ≤ 31 ∧ r.kind = .commit ∧ stagedOf s.part r.format = [] :=
  ⟨turnOf (asks .commit [(8, [4#8])]), asks .commit [(8, [4#8])], [], by unfold RequestTurn Admitted; decide +kernel⟩

theorem witness_CommitAndDiscardBegin_commit : ∃ (s : State) (r : Request) (rest : List Request)
    (u : Nat), RequestTurn s r rest ∧ Admitted s r ∧ r.format ≤ 31 ∧ r.kind = .commit ∧ stagedOf s.part r.format ≠ [] ∧
    RoomFor s.part u ((stagedOf s.part r.format).length + 2) :=
  ⟨turnOf (asks .commit [(8, [3#8])]), asks .commit [(8, [3#8])], [], 0, by unfold RequestTurn Admitted RoomFor; decide +kernel⟩

theorem witness_CommitAndDiscardBegin_discard_none : ∃ (s : State) (r : Request)
    (rest : List Request), RequestTurn s r rest ∧ Admitted s r ∧ r.format ≤ 31 ∧ r.kind = .discard ∧
    stagedOf s.part r.format = [] :=
  ⟨turnOf (asks .discard [(8, [4#8])]), asks .discard [(8, [4#8])], [], by unfold RequestTurn Admitted; decide +kernel⟩

theorem witness_CommitAndDiscardBegin_discard : ∃ (s : State) (r : Request) (rest : List Request) (u : Nat) (e : Entry)
    (es : List Entry), RequestTurn s r rest ∧ Admitted s r ∧ r.format ≤ 31 ∧ r.kind = .discard ∧ KeysDistinct s ∧
    stagedOf s.part r.format = e :: es ∧ RoomFor s.part u (es.length + 1) :=
  ⟨turnOf (asks .discard [(8, [3#8])]), asks .discard [(8, [3#8])], [], 0, onlyStaged, [stagedOver], by unfold RequestTurn Admitted RoomFor KeysDistinct; decide +kernel⟩

theorem witness_RevertAndRetireBegin_revert : ∃ (s : State) (r : Request) (rest : List Request) (u : Nat)
    (e : Entry), RequestTurn s r rest ∧ Admitted s r ∧ keyInRange r.key = true ∧ findKey s.part.cat.entries r.key = some e ∧
    RoomFor s.part u 1 ∧ r.kind = .revert ∧ e.previous ≠ none :=
  ⟨turnOf (asks .revert key265), asks .revert key265, [], 0, inForce, by unfold RequestTurn Admitted RoomFor; decide +kernel⟩

theorem witness_RevertAndRetireBegin_retire : ∃ (s : State) (r : Request) (rest : List Request) (u : Nat)
    (e : Entry), RequestTurn s r rest ∧ Admitted s r ∧ keyInRange r.key = true ∧ findKey s.part.cat.entries r.key = some e ∧
    RoomFor s.part u 1 ∧ r.kind = .retire :=
  ⟨turnOf (asks .retire key265), asks .retire key265, [], 0, inForce, by unfold RequestTurn Admitted RoomFor; decide +kernel⟩

theorem witness_SetStationAndParameterRequestsBegin_delete : ∃ (s : State) (r : Request) (rest : List Request)
    (u : Nat), RequestTurn s r rest ∧ Admitted s r ∧ RoomFor s.part u 1 ∧ r.kind = .ruleLoad ∧ r.loadCount = 0 ∧
    r.loadSet ≤ 63 ∧ (ruleSetAt s.part.rules r.loadSet).image ≠ none ∧ (∀ e ∈ s.part.cat.entries, e.ruleSet ≠ r.loadSet) :=
  ⟨atRest { (turnOf (asks .ruleLoad [(8, [63#8]), (10, leBytes 2 0)])).part with rules := putRuleSet ready.rules 63 (.faulted { unit := 24, first := 5, pages := 1, count := 6, crc := 0 }) }, asks .ruleLoad [(8, [63#8]), (10, leBytes 2 0)], [], 0, by unfold RequestTurn Admitted RoomFor; decide +kernel⟩

theorem witness_SetStationAndParameterRequestsBegin_define : ∃ (s : State) (r : Request) (rest : List Request)
    (u : Nat), RequestTurn s r rest ∧ Admitted s r ∧ RoomFor s.part u 1 ∧ r.kind = .stationDefine ∧ r.defineStation ≤ 15 ∧
    r.defineAction = 1 ∧ (r.defineOrder = 1 ∨ r.defineOrder = 2) ∧ (∀ b ∈ r.defineName, 0x20 ≤ b.toNat ∧ b.toNat ≤ 0x7E) :=
  ⟨turnOf (asks .stationDefine [(8, [15#8]), (9, [1#8]), (10, [2#8]), (12, List.replicate 8 0x7E#8)]), asks .stationDefine [(8, [15#8]), (9, [1#8]), (10, [2#8]), (12, List.replicate 8 0x7E#8)], [], 0, by unfold RequestTurn Admitted RoomFor; decide +kernel⟩

theorem witness_SetStationAndParameterRequestsBegin_undefine : ∃ (s : State) (r : Request) (rest : List Request)
    (u : Nat), RequestTurn s r rest ∧ Admitted s r ∧ RoomFor s.part u 1 ∧ r.kind = .stationDefine ∧ r.defineStation ≤ 15 ∧
    r.defineAction = 2 ∧ (s.part.line.station r.defineStation).defined = true ∧
    (∀ e ∈ s.part.cat.entries, e.key.station ≠ r.defineStation) :=
  ⟨atRest ((turnOf (asks .stationDefine [(8, [15#8]), (9, [2#8])])).part.modifyStation 15 fun x => { x with defined := true }), asks .stationDefine [(8, [15#8]), (9, [2#8])], [], 0, by unfold RequestTurn Admitted RoomFor; decide +kernel⟩

theorem witness_SetStationAndParameterRequestsBegin_params : ∃ (s : State) (r : Request) (rest : List Request)
    (u : Nat), RequestTurn s r rest ∧ Admitted s r ∧ RoomFor s.part u 1 ∧ r.kind = .paramSet ∧ r.operatorAdmit ≤ 1 ∧
    r.overrideParam ≤ 1 :=
  ⟨turnOf (asks .paramSet [(8, leBytes 4 29), (12, [1#8]), (13, [0#8])]), asks .paramSet [(8, leBytes 4 29), (12, [1#8]), (13, [0#8])], [], 0, by unfold RequestTurn Admitted RoomFor; decide +kernel⟩

theorem witness_RetireTakesEffect : ∃ (s : State) (b : Bank) (u m num : Nat) (data : List Byte) (q : List BankJob)
    (r : Request) (e : Entry), s.part.on = true ∧
    s.part.store.queue b = { client := .catalogue, op := .programSlot u m data } :: q ∧ s.part.cat.req = some r ∧
    s.part.cat.badWaiting = [] ∧ s.part.cat.await = some (.slot [.entryGone e.key] num (.retire e.key)) ∧ s.part.cat.todo = [] ∧
    findKey s.part.cat.entries e.key = some e :=
  ⟨slotEnds [.entryGone inForce.key] (.retire inForce.key) (asks .retire key265), .even, 0, 3, 10, [], [], asks .retire key265, inForce,
    by decide +kernel⟩

theorem witness_RetireTakesEffect_enrol : ∃ (s : State) (b : Bank) (u m num : Nat) (data : List Byte) (q : List BankJob)
    (r : Request) (e : Entry) (x : JournalRecord) (run : PageRun), s.part.on = true ∧
    s.part.store.queue b = { client := .catalogue, op := .programSlot u m data } :: q ∧ s.part.cat.req = some r ∧
    s.part.cat.badWaiting = [] ∧ s.part.cat.await = some (.slot [x] num .enrol) ∧ s.part.cat.todo = [] ∧
    s.part.cat.run = some run ∧ findKey s.part.cat.entries r.key = some e ∧ e.staged = none ∧ run.unit < s.part.store.units.length :=
  ⟨slotEnds [.commitEnd] .enrol (asks .enrol key265), .even, 0, 3, 10, [], [], asks .enrol key265, inForce, .commitEnd, run25,
    by decide +kernel⟩

theorem witness_RetireTakesEffect_enrolNew : ∃ (s : State) (b : Bank) (u m num : Nat) (data : List Byte) (q : List BankJob)
    (r : Request) (x : JournalRecord) (run : PageRun), s.part.on = true ∧
    s.part.store.queue b = { client := .catalogue, op := .programSlot u m data } :: q ∧ s.part.cat.req = some r ∧
    s.part.cat.badWaiting = [] ∧ s.part.cat.await = some (.slot [x] num .enrol) ∧ s.part.cat.todo = [] ∧
    s.part.cat.run = some run ∧ findKey s.part.cat.entries r.key = none :=
  ⟨slotEnds [.commitEnd] .enrol enrolReq, .even, 0, 3, 10, [], [], enrolReq, .commitEnd, run25, by decide +kernel⟩

theorem witness_RetireTakesEffect_discard : ∃ (s : State) (b : Bank) (u m num : Nat) (data : List Byte) (q : List BankJob)
    (r : Request) (e : Entry) (x : JournalRecord), s.part.on = true ∧
    s.part.store.queue b = { client := .catalogue, op := .programSlot u m data } :: q ∧ s.part.cat.req = some r ∧
    s.part.cat.badWaiting = [] ∧ s.part.cat.await = some (.slot [x] num (.discard e.key)) ∧ s.part.cat.todo = [.discardEnd] ∧
    findKey s.part.cat.entries e.key = some e :=
  ⟨atRest ((slotEnds [.entryGone onlyStaged.key] (.discard onlyStaged.key) (asks .discard [(8, [3#8])])).part.withCat fun c =>
      { c with todo := [.discardEnd] }), .even, 0, 3, 10, [], [], asks .discard [(8, [3#8])], onlyStaged, .entryGone onlyStaged.key,
    by decide +kernel⟩

theorem witness_RetireTakesEffect_revert : ∃ (s : State) (b : Bank) (u m num : Nat) (data : List Byte) (q : List BankJob)
    (r : Request) (e : Entry) (x : JournalRecord) (g c : Generation), s.part.on = true ∧
    s.part.store.queue b = { client := .catalogue, op := .programSlot u m data } :: q ∧ s.part.cat.req = some r ∧
    s.part.cat.badWaiting = [] ∧ s.part.cat.await = some (.slot [x] num (.revert e.key)) ∧ s.part.cat.todo = [] ∧
    findKey s.part.cat.entries e.key = some e ∧ e.previous = some g ∧ e.current = some c :=
  ⟨slotEnds [.commitEnd] (.revert inForce.key) (asks .revert key265), .even, 0, 3, 10, [], [], asks .revert key265, inForce, .commitEnd,
    gen 2 1, gen 3 0, by decide +kernel⟩

theorem witness_CommitTakesEffect : ∃ (s : State) (b : Bank) (u m num f : Nat) (data : List Byte) (q : List BankJob)
    (r : Request), s.part.on = true ∧ s.part.store.queue b = { client := .catalogue, op := .programSlot u m data } :: q ∧
    s.part.cat.req = some r ∧ s.part.cat.todo = [] ∧ s.part.cat.badWaiting = [] ∧
    s.part.cat.await = some (.slot [.commitEnd] num (.commit f)) ∧ (s.part.cat.entries.map Entry.uid).Nodup :=
  ⟨slotEnds [.commitEnd] (.commit 3) (asks .commit [(8, [3#8])]), .even, 0, 3, 10, 3, [], [], asks .commit [(8, [3#8])],
    by decide +kernel⟩

theorem witness_CommitTakesEffect_ruleLoad : ∃ (s : State) (b : Bank) (u m num : Nat) (data : List Byte) (q : List BankJob)
    (r : Request) (x : JournalRecord) (old : RuleSet) (run : PageRun), s.part.on = true ∧
    s.part.store.queue b = { client := .catalogue, op := .programSlot u m data } :: q ∧ s.part.cat.req = some r ∧
    s.part.cat.todo = [] ∧ s.part.cat.badWaiting = [] ∧ s.part.cat.await = some (.slot [x] num .ruleLoad) ∧
    s.part.cat.run = some run ∧ old = ruleSetAt s.part.rules r.loadSet :=
  ⟨slotEnds [.commitEnd] .ruleLoad (asks .ruleLoad [(8, [63#8]), (10, leBytes 2 1)]), .even, 0, 3, 10, [], [],
    asks .ruleLoad [(8, [63#8]), (10, leBytes 2 1)], .commitEnd, .absent, run25, by decide +kernel⟩

theorem witness_CommitTakesEffect_ruleDelete : ∃ (s : State) (b : Bank) (u m num n : Nat) (data : List Byte) (q : List BankJob)
    (r : Request) (x : JournalRecord) (old : RuleSet), s.part.on = true ∧
    s.part.store.queue b = { client := .catalogue, op := .programSlot u m data } :: q ∧ s.part.cat.req = some r ∧
    s.part.cat.todo = [] ∧ s.part.cat.badWaiting = [] ∧ s.part.cat.await = some (.slot [x] num (.ruleDelete n)) ∧
    old = ruleSetAt s.part.rules n :=
  ⟨slotEnds [.rulesetGone 7] (.ruleDelete 7) (asks .ruleLoad [(8, [7#8])]), .even, 0, 3, 10, 7, [], [], asks .ruleLoad [(8, [7#8])],
    .rulesetGone 7, ruleSetAt ready.rules 7, by decide +kernel⟩

theorem witness_CommitTakesEffect_define : ∃ (s : State) (b : Bank) (u m num n : Nat) (data : List Byte) (q : List BankJob)
    (r : Request) (x : JournalRecord), s.part.on = true ∧
    s.part.store.queue b = { client := .catalogue, op := .programSlot u m data } :: q ∧ s.part.cat.req = some r ∧
    s.part.cat.todo = [] ∧ s.part.cat.badWaiting = [] ∧ s.part.cat.await = some (.slot [x] num .stationDefine) ∧
    r.defineStation = n ∧ n < s.part.line.stations.length ∧ (r.defineOrder = 1 ∨ r.defineOrder = 2) :=
  ⟨slotEnds [.commitEnd] .stationDefine defineReq, .even, 0, 3, 10, 15, [], [], defineReq, .commitEnd, by decide +kernel⟩

theorem witness_CommitTakesEffect_undefine : ∃ (s : State) (b : Bank) (u m num n : Nat) (data : List Byte) (q : List BankJob)
    (r : Request) (x : JournalRecord), s.part.on = true ∧
    s.part.store.queue b = { client := .catalogue, op := .programSlot u m data } :: q ∧ s.part.cat.req = some r ∧
    s.part.cat.todo = [] ∧ s.part.cat.badWaiting = [] ∧ s.part.cat.await = some (.slot [x] num .stationUndefine) ∧
    r.defineStation = n ∧ n < s.part.line.stations.length :=
  ⟨slotEnds [.commitEnd] .stationUndefine (asks .stationDefine [(8, [2#8]), (9, [2#8])]), .even, 0, 3, 10, 2, [], [],
    asks .stationDefine [(8, [2#8]), (9, [2#8])], .commitEnd, by decide +kernel⟩

theorem witness_CommitTakesEffect_params : ∃ (s : State) (b : Bank) (u m num : Nat) (data : List Byte) (q : List BankJob)
    (r : Request) (x : JournalRecord) (ps : Params), s.part.on = true ∧
    s.part.store.queue b = { client := .catalogue, op := .programSlot u m data } :: q ∧ s.part.cat.req = some r ∧
    s.part.cat.todo = [] ∧ s.part.cat.badWaiting = [] ∧ s.part.cat.await = some (.slot [x] num .paramSet) ∧
    ps = { staleness := max 30 (min 3600 r.staleness), operatorAdmit := decide (r.operatorAdmit = 1)
           override := decide (r.overrideParam = 1) } :=
  ⟨slotEnds [.commitEnd] .paramSet (asks .paramSet [(8, leBytes 4 29), (12, [1#8]), (13, [0#8])]), .even, 0, 3, 10, [], [],
    asks .paramSet [(8, leBytes 4 29), (12, [1#8]), (13, [0#8])], .commitEnd, _, by decide +kernel, by decide +kernel, by decide +kernel,
    by decide +kernel, by decide +kernel, by decide +kernel, rfl⟩

theorem witness_FailedSlotIsWrittenAgain : ∃ (s : State) (b : Bank) (u m v num : Nat) (data : List Byte) (q : List BankJob)
    (x : JournalRecord) (xs : List JournalRecord) (w : Writer), s.part.on = true ∧
    s.part.store.queue b = { client := .catalogue, op := .programSlot u m data } :: q ∧
    s.part.cat.await = some (.slot (x :: xs) num w) ∧ s.part.cat.writeUnit = some u ∧ u < s.part.store.units.length ∧
    nextGood ((s.part.store.setQueue b q).modify u fun y => { y with bad := true }) u = some v ∧ u ≠ v ∧
    ((s.part.store.unit v).slots = 0 ∨
      (∃ f ∈ goodRecords s.part.store, f ≠ u ∧ (s.part.store.unit f).slots < Config.slotsPerUnit)) :=
  ⟨underWay (.programSlot 0 3 []) (.slot [.entry .change inForce.image, .commitEnd] 10 (.commit 3))
    (asks .commit [(8, [3#8])]), .even, 0, 3, 1, 10, [], [], _, [.commitEnd], .commit 3, by decide +kernel, by decide +kernel, rfl, by decide +kernel⟩

theorem witness_FailedSlotIsWrittenAgain_erase : ∃ (s : State) (b : Bank) (u m v num : Nat) (data : List Byte) (q : List BankJob)
    (x : JournalRecord) (xs : List JournalRecord) (w : Writer), s.part.on = true ∧
    s.part.store.queue b = { client := .catalogue, op := .programSlot u m data } :: q ∧
    s.part.cat.await = some (.slot (x :: xs) num w) ∧ s.part.cat.writeUnit = some u ∧ u < s.part.store.units.length ∧
    nextGood ((s.part.store.setQueue b q).modify u fun y => { y with bad := true }) u = some v ∧ u ≠ v ∧
    ((s.part.store.unit v).slots = 0 ∨
      (∃ f ∈ goodRecords s.part.store, f ≠ u ∧ (s.part.store.unit f).slots < Config.slotsPerUnit)) ∧ (s.part.store.unit v).slots = 1 :=
  ⟨repeatAhead 1, .even, 0, 3, 1, 10, [], [], .commitEnd, [], .enrol, by decide +kernel⟩

theorem witness_FailedSlotIsWrittenAgain_full : ∃ (s : State) (b : Bank) (u m num : Nat) (data : List Byte) (q : List BankJob)
    (x : JournalRecord) (r : Request), s.part.on = true ∧
    s.part.store.queue b = { client := .catalogue, op := .programSlot u m data } :: q ∧
    s.part.cat.await = some (.slot [x] num .enrol) ∧ s.part.cat.writeUnit = some u ∧ u < s.part.store.units.length ∧
    s.part.cat.req = some r ∧ ∀ f ∈ goodRecords s.part.store, f ≠ u → Config.slotsPerUnit ≤ (s.part.store.unit f).slots :=
  ⟨repeatAhead 128, .even, 0, 3, 10, [], [], .commitEnd, enrolReq, by decide +kernel⟩

theorem witness_ReadBaselineBegins : ∃ (s : State) (r : Request) (rest : List Request) (e : Entry)
    (g : Generation), RequestTurn s r rest ∧ r.kind = .readBaseline ∧ s.part.device = .ready ∧
    (r.origin = 1#8 ∨ r.origin = 2#8) ∧ keyInRange r.key = true ∧ r.address % 8 = 0 ∧
    findKey s.part.cat.entries r.key = some e ∧ (((r.generation = 1 ∧ e.staged = some g) ∨ (r.generation = 2 ∧
    e.current = some g) ∨ (r.generation = 3 ∧ e.previous = some g))) ∧ g.length ≤ r.capacity ∧
    g.unit < s.part.store.units.length :=
  ⟨turnOf (asks .readBaseline [(8, [2#8]), (9, [5#8]), (10, [3#8]), (11, [3#8]), (12, leBytes 4 4), (16, leBytes 8 0x6000)]), asks .readBaseline [(8, [2#8]), (9, [5#8]), (10, [3#8]), (11, [3#8]), (12, leBytes 4 4), (16, leBytes 8 0x6000)], [], inForce, gen 2 1, by unfold RequestTurn; decide +kernel⟩

theorem witness_ListWritesTheMatches : ∃ (s : State) (r : Request) (rest : List Request)
    (out : List Entry), RequestTurn s r rest ∧ r.kind = .list ∧ r.originValid = true ∧
    (r.listStation ≤ 15 ∨ r.listStation = 0xFF) ∧ (r.listBlock ≤ 63 ∨ r.listBlock = 0xFF) ∧
    (r.listFormat ≤ 31 ∨ r.listFormat = 0xFF) ∧ r.listSkip ≤ 1023 ∧ r.listCapacity ≤ 1024 ∧ r.address % 8 = 0 ∧
    s.part.port.enablement = some r.enablement ∧ s.part.pins.mastering = true ∧ Mem.wf hostBlank s.part.host = true ∧
    s.part.device = .ready ∧ out = ((listMatches s.part r).drop r.listSkip).take r.listCapacity ∧
    r.address + 64 * out.length ≤ 2 ^ 64 :=
  ⟨turnOf (asks .list [(8, [0xFF#8]), (9, [0xFF#8]), (10, [3#8]), (12, leBytes 2 1), (14, leBytes 2 1024), (16, leBytes 8 0x6000)]), asks .list [(8, [0xFF#8]), (9, [0xFF#8]), (10, [3#8]), (12, leBytes 2 1), (14, leBytes 2 1024), (16, leBytes 8 0x6000)], [], [onlyStaged, stagedOver], by unfold RequestTurn; decide +kernel⟩

theorem witness_ListWritesTheMatches_unformatted : ∃ (s : State) (r : Request) (rest : List Request), RequestTurn s r rest ∧
    r.kind = .list ∧ r.originValid = true ∧ (r.listStation ≤ 15 ∨ r.listStation = 0xFF) ∧
    (r.listBlock ≤ 63 ∨ r.listBlock = 0xFF) ∧ (r.listFormat ≤ 31 ∨ r.listFormat = 0xFF) ∧ r.listSkip ≤ 1023 ∧
    r.listCapacity ≤ 1024 ∧ r.address % 8 = 0 ∧ s.part.port.enablement = some r.enablement ∧ s.part.pins.mastering = true ∧
    Mem.wf hostBlank s.part.host = true ∧ s.part.device = .unformatted :=
  ⟨atRest { (turnOf (asks .list [(8, [0xFF#8]), (9, [0xFF#8]), (10, [3#8]), (12, leBytes 2 1), (14, leBytes 2 1024), (16, leBytes 8 0x6000)])).part with device := .unformatted }, asks .list [(8, [0xFF#8]), (9, [0xFF#8]), (10, [3#8]), (12, leBytes 2 1), (14, leBytes 2 1024), (16, leBytes 8 0x6000)], [], by unfold RequestTurn; decide +kernel⟩

theorem witness_ListWritesTheMatches_pieces : ∃ (s : State) (r : Request) (rest : List Request) (out : List Entry) (k : Nat),
    RequestTurn s r rest ∧ r.kind = .list ∧ r.originValid = true ∧ (r.listStation ≤ 15 ∨ r.listStation = 0xFF) ∧
    (r.listBlock ≤ 63 ∨ r.listBlock = 0xFF) ∧ (r.listFormat ≤ 31 ∨ r.listFormat = 0xFF) ∧ r.listSkip ≤ 1023 ∧
    r.listCapacity ≤ 1024 ∧ r.address % 8 = 0 ∧ s.part.port.enablement = some r.enablement ∧ s.part.pins.mastering = true ∧
    Mem.wf hostBlank s.part.host = true ∧ s.part.device = .ready ∧
    out = ((listMatches s.part r).drop r.listSkip).take r.listCapacity ∧ r.address + 64 * out.length ≤ 2 ^ 64 ∧ k < out.length :=
  ⟨turnOf listReq, listReq, [], [onlyStaged, stagedOver], 0, by unfold RequestTurn; decide +kernel⟩

theorem witness_ListWritesTheMatches_goesOn : ∃ (s : State) (r : Request) (out : List Entry) (i : Nat), s.part.on = true ∧
    s.part.cat.await = some (.listing i) ∧ s.part.cat.req = some r ∧ s.part.device = .ready ∧ s.part.cat.todo = [] ∧
    s.part.port.enablement = some r.enablement ∧ s.part.pins.mastering = true ∧ Mem.wf hostBlank s.part.host = true ∧
    out = ((listMatches s.part r).drop r.listSkip).take r.listCapacity ∧ i ≤ out.length ∧ r.address + 64 * out.length ≤ 2 ^ 64 :=
  ⟨awaiting listReq (.listing 1), listReq, [onlyStaged, stagedOver], 1, by decide +kernel⟩

theorem witness_ListWritesTheMatches_written : ∃ (s : State) (r : Request) (out : List Entry) (i : Nat), s.part.on = true ∧
    s.part.cat.await = some (.listing i) ∧ s.part.cat.req = some r ∧ s.part.device = .ready ∧ s.part.cat.todo = [] ∧
    s.part.port.enablement = some r.enablement ∧ s.part.pins.mastering = true ∧ Mem.wf hostBlank s.part.host = true ∧
    out = ((listMatches s.part r).drop r.listSkip).take r.listCapacity ∧ i ≤ out.length ∧ r.address + 64 * out.length ≤ 2 ^ 64 :=
  ⟨awaiting listReq (.listing 2), listReq, [onlyStaged, stagedOver], 2, by decide +kernel⟩

theorem witness_ClearPeaksEmptiesPeaks_key : ∃ (s : State) (r : Request) (rest : List Request)
    (e : Entry), RequestTurn s r rest ∧ r.kind = .clearPeaks ∧ s.part.device = .ready ∧ r.origin = 1#8 ∧ KeysDistinct s ∧
    r.peaksChoice = 0 ∧ keyInRange r.peaksKey = true ∧ e ∈ s.part.cat.entries ∧ e.key = r.peaksKey :=
  ⟨turnOf (asks .clearPeaks [(8, [0#8]), (9, [2#8]), (10, [5#8]), (11, [3#8])]), asks .clearPeaks [(8, [0#8]), (9, [2#8]), (10, [5#8]), (11, [3#8])], [], inForce, by unfold RequestTurn KeysDistinct; decide +kernel⟩

theorem witness_ClearPeaksEmptiesPeaks_all : ∃ (s : State) (r : Request) (rest : List Request), RequestTurn s r rest ∧
    r.kind = .clearPeaks ∧ s.part.device = .ready ∧ r.origin = 1#8 ∧ KeysDistinct s ∧ r.peaksChoice = 1 :=
  ⟨turnOf (asks .clearPeaks [(8, [1#8]), (9, [2#8]), (10, [5#8]), (11, [3#8])]), asks .clearPeaks [(8, [1#8]), (9, [2#8]), (10, [5#8]), (11, [3#8])], [], by unfold RequestTurn KeysDistinct; decide +kernel⟩

theorem witness_RuleLoadBegins : ∃ (s : State) (r : Request) (rest : List Request) (T : Nat), RequestTurn s r rest ∧
    r.kind = .ruleLoad ∧ Admitted s r ∧ r.loadSet ≤ 63 ∧ 1 ≤ r.loadCount ∧ r.loadCount ≤ 128 ∧ r.address % 8 = 0 ∧
    T = rulesHeldBeside s.part.rules r.loadSet ∧ T + r.loadCount ≤ 512 :=
  ⟨turnOf (asks .ruleLoad [(8, [63#8]), (10, leBytes 2 128), (16, leBytes 8 0x6000)]), asks .ruleLoad [(8, [63#8]), (10, leBytes 2 128), (16, leBytes 8 0x6000)], [], 6, by unfold RequestTurn Admitted; decide +kernel⟩

theorem witness_RuleLoadBegins_full : ∃ (s : State) (r : Request) (rest : List Request) (T : Nat), RequestTurn s r rest ∧
    r.kind = .ruleLoad ∧ Admitted s r ∧ r.loadSet ≤ 63 ∧ 1 ≤ r.loadCount ∧ r.loadCount ≤ 128 ∧ r.address % 8 = 0 ∧
    T = rulesHeldBeside s.part.rules r.loadSet ∧ 512 < T + r.loadCount :=
  ⟨atRest { (turnOf (asks .ruleLoad [(8, [63#8]), (10, leBytes 2 128), (16, leBytes 8 0x6000)])).part with rules := putRuleSet ready.rules 7 (.faulted { unit := 24, first := 5, pages := 1, count := 385, crc := 0 }) }, asks .ruleLoad [(8, [63#8]), (10, leBytes 2 128), (16, leBytes 8 0x6000)], [], 385, by unfold RequestTurn Admitted; decide +kernel⟩

theorem witness_FormatStoreBegins : ∃ (s : State) (r : Request) (rest : List Request), RequestTurn s r rest ∧
    r.kind = .formatStore ∧ (s.part.device = .ready ∨ s.part.device = .unformatted) ∧ r.origin = 1#8 ∧ r.keyOn = true ∧
    s.part.engine.busy = false ∧ ((∃ u < 1024, u ∉ s.part.store.fuses ∧ 0 < (s.part.store.unit u).pages)) :=
  ⟨turnOf (asks .formatStore [(8, [0#8])]), asks .formatStore [(8, [0#8])], [], by unfold RequestTurn; decide +kernel⟩

theorem witness_FormatStoreBegins_busy : ∃ (s : State) (r : Request) (rest : List Request), RequestTurn s r rest ∧
    r.kind = .formatStore ∧ (s.part.device = .ready ∨ s.part.device = .unformatted) ∧ r.origin = 1#8 ∧ r.keyOn = true ∧
    s.part.engine.busy = true :=
  ⟨atRest { (turnOf (asks .formatStore [(8, [0#8])])).part with engine := { Engine.reset with queue := [checkReq] } }, asks .formatStore [(8, [0#8])], [], by unfold RequestTurn; decide +kernel⟩

theorem witness_FormatStoreBegins_blank : ∃ (s : State) (r : Request) (rest : List Request) (R v : Nat), RequestTurn s r rest ∧
    r.kind = .formatStore ∧ (s.part.device = .ready ∨ s.part.device = .unformatted) ∧ r.origin = 1#8 ∧ r.keyOn = true ∧
    s.part.engine.busy = false ∧ s.part.store.units.length = 1024 ∧
    (∀ u < 1024, u ∉ s.part.store.fuses → (s.part.store.unit u).pages = 0 ∧ (s.part.store.unit u).slots = 0) ∧
    R = (if r.recordArea = 0 then 32 else max 24 (min 64 r.recordArea)) ∧ v < R ∧ v ∉ s.part.store.fuses ∧
    (∀ w < v, w ∈ s.part.store.fuses) ∧ s.part.cat.nextSeq ≤ top32 := by
  refine ⟨atRest { (turnOf (asks .formatStore [(8, [23#8])])).part with device := .unformatted, store := { Store.blank with fuses := [0] } },
    asks .formatStore [(8, [23#8])], [], 24, 1, by unfold RequestTurn; decide +kernel, by decide +kernel, by decide +kernel,
    by decide +kernel, by decide +kernel, by decide +kernel, by decide +kernel, fun u hu _ => ?_, by decide +kernel, by decide +kernel,
    by decide +kernel, by decide +kernel, by decide +kernel⟩
  show ((List.replicate Config.unitCount EraseUnit.blank).getD u .blank).pages = 0 ∧
    ((List.replicate Config.unitCount EraseUnit.blank).getD u .blank).slots = 0
  rw [List.getD_eq_getElem?_getD, List.getElem?_replicate]
  by_cases h : u < Config.unitCount
  · rw [if_pos h]; decide
  · rw [if_neg h]; decide

theorem witness_OwnWorkBegins_marks : ∃ (s : State) (n u : Nat), s.part.on = true ∧ cuTurn s.part = .marks ∧
    n < s.part.line.stations.length ∧ (s.part.line.station n).mark ≠ .clear ∧
    (∀ k < n, (s.part.line.station k).mark = .clear) ∧ RoomFor s.part u 1 :=
  ⟨atRest (ready.modifyStation 2 fun x => { x with mark := .marked }), 2, 0, by unfold RoomFor; decide +kernel⟩

theorem witness_OwnWorkBegins_erases : ∃ (s : State) (u : Nat) (us : List Nat), s.part.on = true ∧ cuTurn s.part = .erases ∧
    erasable s.part.store = u :: us ∧ (s.part.store.unit u).live = 0 ∧ s.part.cat.beginFirst = false :=
  ⟨atRest { ready with store := pendingStore }, 26, [], by decide +kernel⟩

theorem witness_OwnWorkBegins_snapshot : ∃ (s : State) (u R : Nat), s.part.on = true ∧ cuTurn s.part = .snapshot ∧
    s.part.store.recordSize = some R ∧ slotPlace s.part.store s.part.cat.writeUnit false = .here u ∧
    s.part.cat.nextSeq ≤ top32 :=
  ⟨atRest { ready with store := tightStore, cat := { ready.cat with appended := true } }, 0, 24, by decide +kernel⟩

theorem witness_ReclaimStepReadsTheImage : ∃ (s : State) (u : Nat) (ref : ImageRef) (src span : ImageSpan) (run : PageRun)
    (placed : Store), s.part.on = true ∧ cuTurn s.part = .reclaim ∧ pickUnit 1025 s.part.store = (some u, s.part.store) ∧
    (s.part.store.unit u).live ≠ 0 ∧ s.part.store.openUnit ≠ some u ∧ imageIn s.part u 0 = some (ref, span) ∧
    spanOf s.part ref = some src ∧ placeRun s.part.store src.run.pages = (some run, placed) :=
  ⟨atRest { ready with store := { smallStore with runFlag := true } }, 24, .gen 0 3, (gen 3 0).span, (gen 3 0).span, { unit := 25, first := 0, pages := 1 }, (placeRun { smallStore with runFlag := true } 1).2, by decide +kernel⟩

theorem witness_ReportIsTaken : ∃ (s : State) (d : DamageReport) (ds : List DamageReport), s.part.on = true ∧
    s.part.cat.reports = d :: ds :=
  ⟨withCat fun c => { c with reports := [{ uid := 0, number := 3 }] }, { uid := 0, number := 3 }, [], by decide +kernel⟩

theorem witness_LaneSetsUp_check : ∃ (s : State) (l : Lane) (r : Request) (rest : List Request) (f : Nat) (e : Entry)
    (g : Generation), s.part.on = true ∧ s.part.device = .ready ∧ s.part.engine.queue = r :: rest ∧
    (s.part.engine.lane l).state = .idle ∧ (l = .b → s.part.engine.laneA.state ≠ .idle) ∧ (((r.kind = .check ∧ r.origin = 1#8 ∧
    (r.selector = 0xFF ∨ r.selector ≤ 31)) ∨ (r.kind = .admission ∧ r.originValid = true))) ∧ r.station ≤ 15 ∧ r.block ≤ 63 ∧
    2 ≤ r.length ∧ r.length ≤ 16384 ∧ r.length % 2 = 0 ∧ r.address % 8 = 0 ∧ (s.part.line.station r.station).defined = true ∧
    resolvedFormat s.part r = some f ∧ lookup s.part r.station r.block f = some (e, g) ∧ e.damaged = false ∧
    (ruleSetAt s.part.rules e.ruleSet).isFaulted = false ∧ g.unit < s.part.store.units.length :=
  ⟨atRest { ready with engine := { Engine.reset with queue := [checkReq] } }, .a, checkReq, [], 3, inForce, gen 3 0, by decide +kernel⟩

theorem witness_LaneSetsUp_admit : ∃ (s : State) (l : Lane) (r : Request) (rest : List Request) (f : Nat) (e : Entry)
    (g : Generation), s.part.on = true ∧ s.part.device = .ready ∧ s.part.engine.queue = r :: rest ∧
    (s.part.engine.lane l).state = .idle ∧ (l = .b → s.part.engine.laneA.state ≠ .idle) ∧ (((r.kind = .check ∧ r.origin = 1#8 ∧
    (r.selector = 0xFF ∨ r.selector ≤ 31)) ∨ (r.kind = .admission ∧ r.originValid = true))) ∧ r.station ≤ 15 ∧ r.block ≤ 63 ∧
    2 ≤ r.length ∧ r.length ≤ 16384 ∧ r.length % 2 = 0 ∧ r.address % 8 = 0 ∧ (s.part.line.station r.station).defined = true ∧
    resolvedFormat s.part r = some f ∧ lookup s.part r.station r.block f = some (e, g) ∧ e.damaged = false ∧
    (ruleSetAt s.part.rules e.ruleSet).isFaulted = false ∧ g.unit < s.part.store.units.length :=
  ⟨atRest { ready with engine := { Engine.reset with queue := [{ checkReq with kind := .admission, origin := 3#8 }] } }, .a, { checkReq with kind := .admission, origin := 3#8 }, [], 3, inForce, gen 3 0, by decide +kernel⟩

theorem witness_LaneSetsUp_laneB : ∃ (s : State) (l : Lane) (r : Request) (rest : List Request) (f : Nat) (e : Entry)
    (g : Generation), s.part.on = true ∧ s.part.device = .ready ∧ s.part.engine.queue = r :: rest ∧
    (s.part.engine.lane l).state = .idle ∧ (l = .b → s.part.engine.laneA.state ≠ .idle) ∧ (((r.kind = .check ∧ r.origin = 1#8 ∧
    (r.selector = 0xFF ∨ r.selector ≤ 31)) ∨ (r.kind = .admission ∧ r.originValid = true))) ∧ r.station ≤ 15 ∧ r.block ≤ 63 ∧
    2 ≤ r.length ∧ r.length ≤ 16384 ∧ r.length % 2 = 0 ∧ r.address % 8 = 0 ∧ (s.part.line.station r.station).defined = true ∧
    resolvedFormat s.part r = some f ∧ lookup s.part r.station r.block f = some (e, g) ∧ e.damaged = false ∧
    (ruleSetAt s.part.rules e.ruleSet).isFaulted = false ∧ g.unit < s.part.store.units.length :=
  ⟨atRest { ready with engine := { Engine.reset with laneA := laneAt .reading, queue := [checkReq] } }, .b, checkReq, [], 3, inForce, gen 3 0, by decide +kernel⟩

theorem witness_CaptureCompletes : ∃ (s : State) (l : Lane) (host : List Host.Cell) (r : Request) (x : LaneSetup)
    (image : List Byte), s.part.on = true ∧ (s.part.engine.lane l).state = .capturing ∧ (s.part.engine.lane l).req = some r ∧
    (s.part.engine.lane l).setup = some x ∧ s.part.port.enablement = some r.enablement ∧ s.part.pins.mastering = true ∧
    r.address + r.length ≤ 2 ^ 64 ∧ image = Mem.readN hostBlank (Mem.apply hostBlank s.part.host host) r.address r.length :=
  ⟨withLane (laneAt .capturing) smallStore, .a, [(0x6000, 9#8)], checkReq, checkSetup, [9#8, 0#8, 0#8, 0#8], by decide +kernel⟩

theorem witness_LastPageRecordsTheVerdict : ∃ (s : State) (b : Bank) (l : Lane) (q : List BankJob) (errors : Nat)
    (r : Request) (x : LaneSetup) (base : List Byte) (res : Tally × Nat), s.part.on = true ∧
    s.part.store.queue b = { client := .lane l, op := .readPage x.gen.unit (x.gen.first + (s.part.engine.lane l).pagesRead) } :: q ∧
    (s.part.engine.lane l).state = .reading ∧ (s.part.engine.lane l).req = some r ∧ (s.part.engine.lane l).setup = some x ∧
    r.kind = .check ∧ r.selector = 0xFF ∧ errors ≤ 8 ∧ (s.part.engine.lane l).pagesRead + 1 = x.gen.pages ∧
    base = ((s.part.engine.lane l).baseline ++ s.part.store.pageData x.gen.unit (x.gen.first + (s.part.engine.lane l).pagesRead)).take x.gen.length ∧
    crc32 base = x.gen.crc ∧
    res = compareImages (s.part.engine.lane l).rules (s.part.engine.lane l).order base (s.part.engine.lane l).capture ∧
    (s.part.engine.lane l).removed = false ∧ s.part.line.epoch = x.epoch ∧
    (∃ e ∈ s.part.cat.entries, findUid s.part.cat.entries x.entry = some e ∧
    e.current.map Generation.number = some x.gen.number) :=
  ⟨readingLane, .even, .a, [], 8, checkReq, checkSetup, [1#8, 2#8, 3#8, 4#8], compareImages fillerRules .big [1#8, 2#8, 3#8, 4#8] [1#8, 2#8, 3#8, 4#8], by decide +kernel⟩

theorem witness_PageProgramAndEraseEnd_program : ∃ (s : State) (b : Bank) (q : List BankJob) (u page i : Nat)
    (data : List Byte) (run : PageRun) (second : Bool), s.part.on = true ∧ u < s.part.store.units.length ∧
    s.part.store.queue b = { client := .catalogue, op := .programPage u page data } :: q ∧
    s.part.cat.await = some (.program run i second) ∧ i + 1 < run.pages ∧ run.unit = u :=
  ⟨underWay (.programPage 26 0 []) (.program { unit := 26, first := 0, pages := 2 } 0 false)
    (asks .commit []), .even, [], 26, 0, 0, [], { unit := 26, first := 0, pages := 2 }, false, by decide +kernel⟩

theorem witness_PageProgramAndEraseEnd_erase : ∃ (s : State) (b : Bank) (q : List BankJob) (u : Nat), s.part.on = true ∧
    u < s.part.store.units.length ∧ s.part.store.queue b = { client := .catalogue, op := .eraseUnit u } :: q ∧
    s.part.cat.await = some (.erase u [] .between) ∧ s.part.cat.todo = [] ∧ s.part.store.isImage u = true :=
  ⟨underWay (.eraseUnit 26) (.erase 26 [] .between) (asks .commit []), .even, [], 26, by decide +kernel⟩

theorem witness_PageProgramAndEraseEnd_erasedRead : ∃ (s : State) (b : Bank) (q : List BankJob) (client : Client) (v k : Nat),
    s.part.on = true ∧ s.part.store.queue b = { client := client, op := .readPage v k } :: q ∧ (s.part.store.unit v).pages ≤ k :=
  ⟨withLane (laneAt .reading) { smallStore with bank0 := [{ client := .lane .a, op := .readPage 24 5 }] }, .even, [], .lane .a, 24, 5,
    by decide +kernel⟩

end Sys2Proof.Tests
end

section
namespace Sys2Proof.Machine

/-! ## What may happen to the catalogue's entries -/

/-- An entry follows another: the same key, and the order of R2 not lost. -/
def Entry.Follows (e e' : Entry) : Prop := e'.key = e.key ∧ (e.ordered → e'.ordered)

/-- What every act but mount does to the entries: distinct keys stay distinct (R1), and ordered generations stay ordered (R2). -/
structure EntriesKept (es es' : List Entry) : Prop where
  keys  : (es.map Entry.key).Nodup → (es'.map Entry.key).Nodup
  order : (∀ e ∈ es, e.ordered) → ∀ e ∈ es', e.ordered

theorem Entry.Follows.refl (e : Entry) : e.Follows e := ⟨rfl, id⟩

/-- An entry changed in its verdict, its damage or its peaks alone follows the one it was. -/
theorem Entry.Follows.of_same {e e' : Entry} (hk : e'.key = e.key) (hc : e'.counter = e.counter) (hs : e'.staged = e.staged)
    (hu : e'.current = e.current) (hp : e'.previous = e.previous) : e.Follows e' := by
  refine ⟨hk, fun h => ?_⟩
  simpa only [Entry.ordered, Entry.generations, hc, hs, hu, hp] using h

theorem Entry.Follows.ite {c : Prop} [Decidable c] {e a b : Entry} (ha : e.Follows a) (hb : e.Follows b) :
    e.Follows (if c then a else b) := by
  split
  · exact ha
  · exact hb

theorem Entry.Follows.trans {a b c : Entry} (h : a.Follows b) (g : b.Follows c) : a.Follows c :=
  ⟨g.1.trans h.1, fun o => g.2 (h.2 o)⟩

theorem follows_stampVerdict (l : Line) (v : Verdict) (e : Entry) : e.Follows (stampVerdict l v e) := .of_same rfl rfl rfl rfl rfl

theorem follows_emptyPeaks (e : Entry) : e.Follows e.emptyPeaks := .of_same rfl rfl rfl rfl rfl

/-- The order of R2 field by field: no Option.toList in the way. -/
theorem Entry.ordered_iff (e : Entry) : e.ordered ↔
    (∀ a ∈ e.previous, ∀ b ∈ e.current, a.number < b.number) ∧ (∀ a ∈ e.previous, ∀ b ∈ e.staged, a.number < b.number) ∧
    (∀ a ∈ e.current, ∀ b ∈ e.staged, a.number < b.number) ∧ (∀ g ∈ e.staged, g.number < e.counter) ∧
    (∀ g ∈ e.current, g.number < e.counter) ∧ ∀ g ∈ e.previous, g.number < e.counter := by
  simp only [Entry.ordered, Entry.generations, List.mem_append, Option.mem_toList, Option.mem_def, or_imp, forall_and, and_assoc]

/-- ENROL stages its generation under the counter, which no generation has reached (R2, R14). -/
theorem follows_enrolled (n : Nat) (image : List Byte) (run : PageRun) (e : Entry) : e.Follows (e.enrolled n image run) := by
  refine ⟨rfl, fun h => ?_⟩
  obtain ⟨hpc, -, -, -, hc, hp⟩ := (Entry.ordered_iff e).1 h
  refine (Entry.ordered_iff _).2 ⟨hpc, ?_, ?_, ?_, fun g hg => Nat.lt_succ_of_lt (hc g hg), fun g hg => Nat.lt_succ_of_lt (hp g hg)⟩
  · rintro a ha _ ⟨rfl⟩
    exact hp a ha
  · rintro a ha _ ⟨rfl⟩
    exact hc a ha
  · rintro _ ⟨rfl⟩
    exact Nat.lt_succ_self _

theorem follows_committed (e : Entry) : e.Follows (committed e) := by
  refine ⟨rfl, fun h => ?_⟩
  obtain ⟨-, -, hcs, hs, hc, -⟩ := (Entry.ordered_iff e).1 h
  rw [Entry.ordered_iff]
  simpa [committed] using ⟨hcs, hs, hc⟩

theorem follows_discarded (e : Entry) : e.Follows (discarded e) := by
  refine ⟨rfl, fun h => ?_⟩
  obtain ⟨hpc, -, -, -, hc, hp⟩ := (Entry.ordered_iff e).1 h
  rw [Entry.ordered_iff]
  simpa [discarded] using ⟨hpc, hc, hp⟩

theorem follows_reverted (e : Entry) : e.Follows (reverted e) := by
  refine ⟨rfl, fun h => ?_⟩
  obtain ⟨-, hps, -, hs, -, hp⟩ := (Entry.ordered_iff e).1 h
  rw [Entry.ordered_iff]
  simpa [reverted] using ⟨hps, hs, hp⟩

@[simp] theorem movedIf_number (n : Nat) (run : PageRun) (g : Generation) : (movedIf n run g).number = g.number := by
  unfold movedIf
  split <;> rfl

/-- A move changes places, never numbers (R3). -/
theorem follows_moved (n : Nat) (run : PageRun) (e : Entry) : e.Follows (e.moved n run) := by
  refine ⟨rfl, fun h => ?_⟩
  rw [Entry.ordered_iff] at h ⊢
  simpa [Entry.moved] using h

theorem EntriesKept.refl (es : List Entry) : EntriesKept es es := ⟨id, id⟩

theorem EntriesKept.map {es es' : List Entry} (h : EntriesKept es es') {f : Entry → Entry} (hf : ∀ e : Entry, e.Follows (f e)) :
    EntriesKept es (es'.map f) where
  keys hn := by
    have : (es'.map f).map Entry.key = es'.map Entry.key := by simp [fun e => (hf e).1]
    rw [this]
    exact h.keys hn
  order ho e he := by
    obtain ⟨x, hx, rfl⟩ := List.mem_map.1 he
    exact (hf x).2 (h.order ho x hx)

theorem EntriesKept.sublist {es xs ys : List Entry} (h : EntriesKept es xs) (hs : ys.Sublist xs) : EntriesKept es ys where
  keys hn := (h.keys hn).sublist (hs.map _)
  order ho e he := h.order ho e (hs.subset he)

theorem EntriesKept.append {es xs : List Entry} (h : EntriesKept es xs) {e : Entry} (hk : ∀ x ∈ xs, x.key ≠ e.key) (ho : e.ordered) :
    EntriesKept es (xs ++ [e]) where
  keys hn := by
    rw [List.map_append, List.nodup_append]
    refine ⟨h.keys hn, by simp, ?_⟩
    simpa using hk
  order hs x hx := by
    rcases List.mem_append.1 hx with hx | hx
    · exact h.order hs x hx
    · rwa [List.mem_singleton.1 hx]

/-- The entries of a part have come from es by such acts. -/
def CatalogueKept (es : List Entry) (p : Part) : Prop := EntriesKept es p.cat.entries

section
variable {es : List Entry} {p : Part}

theorem CatalogueKept.of_entries (h : CatalogueKept es p) {q : Part} (hq : q.cat.entries = p.cat.entries) : CatalogueKept es q := by
  rwa [CatalogueKept, hq]

theorem CatalogueKept.mapEntries (h : CatalogueKept es p) {q : Part} (f : Entry → Entry) (hf : ∀ e : Entry, e.Follows (f e))
    (hq : q.cat.entries = p.cat.entries.map f) : CatalogueKept es q := by
  rw [CatalogueKept, hq]
  exact EntriesKept.map h hf

theorem CatalogueKept.modifyEntry (h : CatalogueKept es p) (u : Nat) {f : Entry → Entry} (hf : ∀ e : Entry, e.Follows (f e)) :
    CatalogueKept es (p.modifyEntry u f) := h.mapEntries _ (fun e => .ite (hf e) (.refl e)) rfl

theorem CatalogueKept.uncheck (h : CatalogueKept es p) (which : Entry → Bool) : CatalogueKept es (uncheck p which) :=
  h.mapEntries _ (fun e => .ite (follows_stampVerdict _ _ e) (.refl e)) rfl

/-- A part without entries, as after RESET#, has kept everything. -/
theorem CatalogueKept.of_nil {q : Part} (hq : q.cat.entries = []) : CatalogueKept es q := by
  rw [CatalogueKept, hq]
  exact ⟨fun _ => List.nodup_nil, fun _ _ h => nomatch h⟩

end
end Sys2Proof.Machine
end

section
/-! The entries through each operation of the Catalogue Unit: most leave them as they are. -/
namespace Sys2Proof.Machine

/-! ## Operations that leave the entries as they are -/

@[simp] theorem push_entries (ops : List CuOp) (p : Part) : (push ops p).cat.entries = p.cat.entries := rfl
@[simp] theorem onlyDo_entries (ops : List CuOp) (p : Part) : (onlyDo ops p).cat.entries = p.cat.entries := rfl
@[simp] theorem issue_entries (op : BankOp) (w : CuAwait) (p : Part) : (issue op w p).cat.entries = p.cat.entries := rfl
@[simp] theorem finishWith_entries (c : Code) (items : List (Nat × List Byte)) (p : Part) :
    (finishWith c items p).cat.entries = p.cat.entries := rfl
@[simp] theorem fail_entries (c : Code) (p : Part) : (fail c p).cat.entries = p.cat.entries := rfl
@[simp] theorem thenOk_entries (items : List (Nat × List Byte)) (p : Part) : (thenOk items p).cat.entries = p.cat.entries := rfl
@[simp] theorem waitBad_entries (u : Nat) (p : Part) : (waitBad u p).cat.entries = p.cat.entries := rfl
@[simp] theorem endJob_entries (p : Part) : (endJob p).cat.entries = p.cat.entries := rfl
@[simp] theorem mapMarks_cat (f : Mark → Mark) (p : Part) : (mapMarks f p).cat = p.cat := rfl
@[simp] theorem stayAtSource_cat (u : Nat) (p : Part) : (stayAtSource u p).cat = p.cat := rfl
@[simp] theorem awaitHost_entries (p : Part) : (awaitHost p).cat.entries = p.cat.entries := rfl

@[simp] theorem askScan_cat (p : Part) : (askScan p).cat = p.cat := by
  unfold askScan
  split <;> rfl

@[simp] theorem reclaimTest_cat (p : Part) : (reclaimTest p).cat = p.cat := by
  unfold reclaimTest
  repeat' split
  all_goals rfl

@[simp] theorem freeTested_cat (old p : Part) : (freeTested old p).cat = p.cat := by
  unfold freeTested
  split <;> simp

@[simp] theorem cuSettle_cat (p : Part) : (cuSettle p).cat = p.cat := by
  unfold cuSettle
  split <;> simp

@[simp] theorem snapRead_cat (p : Part) (i : SnapItem) : (snapRead p i).cat = p.cat := by cases i <;> rfl

@[simp] theorem readFor_cat (p : Part) (w : Writer) : (readFor p w).cat = p.cat := by
  unfold readFor
  repeat' split
  all_goals rfl

@[simp] theorem fullFor_entries (w : Writer) (p : Part) : (fullFor w p).cat.entries = p.cat.entries := by cases w <;> rfl

@[simp] theorem journalFull_entries (w : Writer) (p : Part) : (journalFull w p).cat.entries = p.cat.entries := by
  simp [journalFull]

@[simp] theorem putSlot_entries (again : Bool) (recs : List JournalRecord) (num : Nat) (w : Writer) (p : Part) :
    (putSlot again recs num w p).cat.entries = p.cat.entries := by
  unfold putSlot
  split <;> simp

@[simp] theorem putRecord_entries (recs : List JournalRecord) (w : Writer) (p : Part) :
    (putRecord recs w p).cat.entries = p.cat.entries := by
  unfold putRecord
  split <;> simp

@[simp] theorem appendRecords_entries (k : Option Nat) (again : Bool) (w : Writer) (p : Part) :
    (appendRecords k again w p).cat.entries = p.cat.entries := by
  unfold appendRecords
  repeat' split
  all_goals simp

@[simp] theorem applyRuleLoad_entries (p : Part) : (applyRuleLoad p).cat.entries = p.cat.entries := by
  unfold applyRuleLoad
  split <;> simp

@[simp] theorem applyRuleDelete_entries (n : Nat) (p : Part) : (applyRuleDelete n p).cat.entries = p.cat.entries := rfl

@[simp] theorem applyStation_entries (f : Request → Station → Station) (p : Part) :
    (applyStation f p).cat.entries = p.cat.entries := by
  unfold applyStation
  split <;> simp

@[simp] theorem snapshotClosed_entries (p : Part) : (snapshotClosed p).cat.entries = p.cat.entries := by
  unfold snapshotClosed
  split <;> simp

@[simp] theorem snapshotItem_entries (items : List SnapItem) (count : Nat) (p : Part) :
    (snapshotItem items count p).cat.entries = p.cat.entries := by
  unfold snapshotItem
  split <;> simp

@[simp] theorem eraseNext_entries (us : List Nat) (why : EraseWhy) (p : Part) : (eraseNext us why p).cat.entries = p.cat.entries := by
  unfold eraseNext
  repeat' split
  all_goals simp

@[simp] theorem flushBad_entries (p : Part) : (flushBad p).cat.entries = p.cat.entries := by
  unfold flushBad
  split <;> simp

@[simp] theorem programImage_entries (run : PageRun) (page : Nat) (second : Bool) (p : Part) :
    (programImage run page second p).cat.entries = p.cat.entries := rfl

@[simp] theorem placeImage_entries (second afterInline : Bool) (p : Part) :
    (placeImage second afterInline p).cat.entries = p.cat.entries := by
  unfold placeImage
  repeat' split
  all_goals simp

@[simp] theorem chooseUnit_entries (why : MoveWhy) (eraseWhy : EraseWhy) (p : Part) :
    (chooseUnit why eraseWhy p).cat.entries = p.cat.entries := by
  unfold chooseUnit
  split
  · rfl
  · dsimp only
    repeat' split
    all_goals simp

@[simp] theorem inlineTurn_entries (p : Part) : (inlineTurn p).cat.entries = p.cat.entries := by
  unfold inlineTurn
  repeat' split
  all_goals simp

@[simp] theorem evacuate_entries (unit page : Nat) (p : Part) : (evacuate unit page p).cat.entries = p.cat.entries := by
  unfold evacuate
  repeat' split
  all_goals simp

@[simp] theorem moveUnplaced_entries (ref : ImageRef) (second : Bool) (why : MoveWhy) (afterInline : Bool) (p : Part) :
    (moveUnplaced ref second why afterInline p).cat.entries = p.cat.entries := by
  unfold moveUnplaced
  repeat' split
  all_goals simp

@[simp] theorem beginMove_entries (ref : ImageRef) (second : Bool) (why : MoveWhy) (afterInline : Bool) (p : Part) :
    (beginMove ref second why afterInline p).cat.entries = p.cat.entries := by
  unfold beginMove
  repeat' split
  all_goals simp

@[simp] theorem abandonMove_entries (m : Move) (p : Part) : (abandonMove m p).cat.entries = p.cat.entries := by
  unfold abandonMove
  split <;> simp

@[simp] theorem copyDone_entries (m : Move) (p : Part) : (copyDone m p).cat.entries = p.cat.entries := by
  unfold copyDone
  split <;> simp

@[simp] theorem readBackEnd_entries (code : Code) (p : Part) : (readBackEnd code p).cat.entries = p.cat.entries := by
  unfold readBackEnd
  cases p.cat.pin <;> rfl

@[simp] theorem formatWrite_entries (p : Part) : (formatWrite p).cat.entries = p.cat.entries := rfl

@[simp] theorem formatReady_entries (p : Part) : (formatReady p).cat.entries = p.cat.entries := by simp [formatReady]

@[simp] theorem sweepOn_entries (running : List Nat) (p : Part) : (sweepOn running p).cat.entries = p.cat.entries := by
  unfold sweepOn
  dsimp only
  split <;> rfl

@[simp] theorem mountReady_entries (p : Part) : (mountReady p).cat.entries = p.cat.entries := by
  simp [mountReady, (settleStations_frame _).2.1]

/-- Step 7 of R138 leaves no entry, whichever way the formatting ends. -/
theorem formatEmpty_entries (p : Part) : (formatEmpty p).cat.entries = [] := by
  unfold formatEmpty
  split <;> simp [emptyCatalogue]

/-! ## Operations that change entries -/

section
variable {es : List Entry} {p : Part}

/-- ENROL changes the entry with the key, or adds one where no entry has the key (R14). -/
theorem applyEnrol_kept (h : CatalogueKept es p) : CatalogueKept es (applyEnrol p) := by
  unfold applyEnrol
  split
  · rename_i r run _ _
    split
    · rename_i old hold
      exact (h.modifyEntry old.uid (follows_enrolled r.enrolRuleSet p.cat.buffer run)).of_entries rfl
    · rename_i hnone
      have hnew : enrolledEntry p r run = (newEntry p r.key r.enrolRuleSet).enrolled r.enrolRuleSet p.cat.buffer run := by
        simp [enrolledEntry, hnone]
      refine (EntriesKept.append h ?_ ?_ : EntriesKept es (p.cat.entries ++ [enrolledEntry p r run]))
      · intro x hx
        rw [hnew]
        simpa [Entry.enrolled, newEntry] using List.find?_eq_none.1 hnone x hx
      · rw [hnew]
        exact (follows_enrolled _ _ _ _).2 (by simp [Entry.ordered, newEntry, Entry.generations])
  · exact h

theorem applyCommit_kept (f : Nat) (h : CatalogueKept es p) : CatalogueKept es (applyCommit f p) := by
  simp only [CatalogueKept, applyCommit, thenOk_entries, recompute_cat]
  exact (EntriesKept.map h fun e => .ite ((follows_committed e).trans (follows_emptyPeaks _)) (.refl e)).map
    fun e => .ite (follows_stampVerdict _ _ e) (.refl e)

theorem applyDiscard_kept (k : Key) (h : CatalogueKept es p) : CatalogueKept es (applyDiscard k p) := by
  unfold applyDiscard
  split
  · exact h
  · exact (EntriesKept.map h fun x => .ite (follows_discarded x) (.refl x)).sublist List.filter_sublist

theorem applyRevert_kept (k : Key) (h : CatalogueKept es p) : CatalogueKept es (applyRevert k p) := by
  unfold applyRevert
  split
  · exact h
  · simp only [CatalogueKept, thenOk_entries, recompute_cat]
    exact CatalogueKept.uncheck
      (CatalogueKept.modifyEntry h _ fun e => (follows_reverted e).trans (follows_emptyPeaks _)) _

theorem applyRetire_kept (k : Key) (h : CatalogueKept es p) : CatalogueKept es (applyRetire k p) := by
  unfold applyRetire
  split
  · exact h
  · simp only [CatalogueKept, thenOk_entries, recompute_cat]
    exact EntriesKept.sublist h List.filter_sublist

theorem takeParams_kept (ps : Params) (h : CatalogueKept es p) : CatalogueKept es (takeParams p ps) := by
  simp only [CatalogueKept, takeParams, recompute_cat]
  exact EntriesKept.map h fun e => .ite (follows_stampVerdict _ .stale e) (.refl e)

theorem applyParams_kept (h : CatalogueKept es p) : CatalogueKept es (applyParams p) := by
  unfold applyParams
  split
  · exact h
  · exact (takeParams_kept _ h).of_entries rfl

theorem relocate_kept (m : Move) (h : CatalogueKept es p) : CatalogueKept es (relocate p m) := by
  unfold relocate
  split
  · exact (h.modifyEntry _ (follows_moved _ _)).of_entries rfl
  · exact h

/-- What follows a writer's complete records keeps the catalogue (R10). -/
theorem written_kept (w : Writer) (h : CatalogueKept es p) : CatalogueKept es (written w p) := by
  cases w with
  | enrol => exact applyEnrol_kept h
  | commit f => exact applyCommit_kept f h
  | discard k => exact applyDiscard_kept k h
  | revert k => exact applyRevert_kept k h
  | retire k => exact applyRetire_kept k h
  | paramSet => exact applyParams_kept h
  | move m => exact (relocate_kept m h).of_entries rfl
  | ruleLoad => exact h.of_entries (applyRuleLoad_entries p)
  | ruleDelete n => exact h.of_entries (applyRuleDelete_entries n p)
  | stationDefine => exact h.of_entries (applyStation_entries _ p)
  | stationUndefine => exact h.of_entries (applyStation_entries _ p)
  | stationMark | formatMark | badUnit | snapshotPart => exact h

theorem readBackFailed_kept (e : Entry) (g : Generation) (h : CatalogueKept es p) : CatalogueKept es (readBackFailed e g p) := by
  unfold readBackFailed
  dsimp only
  split
  · exact CatalogueKept.modifyEntry h e.uid (f := fun x => { x with damaged := true }) fun x => .of_same rfl rfl rfl rfl rfl
  · exact h

theorem readBackPage_kept (page : Nat) (data : List Byte) (r : Request) (e : Entry) (g : Generation) (h : CatalogueKept es p) :
    CatalogueKept es (readBackPage page data r e g p) := by
  unfold readBackPage
  dsimp only
  repeat' split
  · exact h
  · exact h
  · exact readBackFailed_kept e g h
  · exact h

theorem applyReport_kept (d : DamageReport) (h : CatalogueKept es p) : CatalogueKept es (applyReport d p) :=
  h.modifyEntry _ fun e => .ite (.of_same rfl rfl rfl rfl rfl) (.refl e)

/-! ## The unit's work -/

/-- Every operation of the Catalogue Unit keeps the catalogue. -/
theorem workOp_kept (op : CuOp) (h : CatalogueKept es p) : CatalogueKept es (workOp op p) := by
  cases op with
  | write recs w =>
    cases recs with
    | nil => exact written_kept w h
    | cons x xs => exact h.of_entries (putRecord_entries _ w p)
  | formatEmpty => exact .of_nil (formatEmpty_entries p)
  | snapshot =>
    simp only [workOp]
    split
    · exact h
    · exact h
  | moveGivenUp ref =>
    simp only [workOp]
    split
    · exact h
    · exact h
  | readBack page =>
    simp only [workOp]
    split
    · exact h
    · exact h
  | finish code result =>
    simp only [workOp]
    split
    · exact h
    · exact h
  | _ => exact h.of_entries (by simp [workOp])

theorem cuRun_kept (n : Nat) (h : CatalogueKept es p) : CatalogueKept es (cuRun n p) :=
  cuRun_keeps (CatalogueKept es) (fun op _ => workOp_kept op) (fun _ _ h => h) (fun _ h => h)
    (fun q h => h.of_entries (by simp)) (fun _ h => h) n p h

theorem cuWork_kept (h : CatalogueKept es p) : CatalogueKept es (cuWork p) :=
  (cuRun_kept Config.workBound h).of_entries (by simp [cuWork])

/-- An outcome that the unit takes keeps the catalogue when the act it brings about does. -/
theorem cuResume_kept {f : Part → Part} (h : CatalogueKept es p) (hf : ∀ q, CatalogueKept es q → CatalogueKept es (f q)) :
    CatalogueKept es (cuResume p f) :=
  cuWork_kept ((hf (p.withCat fun c => { c with await := none }) h).of_entries (by simp))

theorem slotOutcome_entries (u slot : Nat) (data : List Byte) (o : ProgOutcome) (recs : List JournalRecord) (num : Nat) (w : Writer)
    (p : Part) : (slotOutcome u slot data o recs num w p).cat.entries = p.cat.entries := by
  cases o <;> simp [slotOutcome]

theorem ringOutcome_entries (u : Nat) (o : EraseOutcome) (recs : List JournalRecord) (num : Nat) (w : Writer) (again : Bool)
    (p : Part) : (ringOutcome u o recs num w again p).cat.entries = p.cat.entries := by
  cases o with
  | done => simp [ringOutcome]
  | failed erased =>
    simp only [ringOutcome]
    split <;> simp

theorem eraseOutcome_entries (u : Nat) (o : EraseOutcome) (rest : List Nat) (why : EraseWhy) (p : Part) :
    (eraseOutcome u o rest why p).cat.entries = p.cat.entries := by
  cases o with
  | done => rfl
  | failed erased =>
    simp only [eraseOutcome]
    split <;> rfl

theorem sweepOutcome_entries (u : Nat) (o : EraseOutcome) (running : List Nat) (p : Part) :
    (sweepOutcome u o running p).cat.entries = p.cat.entries := by
  unfold sweepOutcome
  cases o <;>
  · dsimp only
    repeat' split
    all_goals simp

theorem programOutcome_entries (unit page : Nat) (data : List Byte) (o : ProgOutcome) (run : PageRun) (i : Nat) (second : Bool)
    (p : Part) : (programOutcome unit page data o run i second p).cat.entries = p.cat.entries := by
  cases o with
  | done =>
    simp only [programOutcome]
    split <;> rfl
  | failed left => rfl

theorem moveProgramOutcome_entries (unit page : Nat) (data : List Byte) (o : ProgOutcome) (m : Move) (i : Nat) (p : Part) :
    (moveProgramOutcome unit page data o m i p).cat.entries = p.cat.entries := by
  cases o with
  | done =>
    simp only [moveProgramOutcome]
    split
    · rfl
    · simp
  | failed left => rfl

theorem moveReadOutcome_entries (unit page errors : Nat) (m : Move) (i : Nat) (p : Part) :
    (moveReadOutcome unit page errors m i p).cat.entries = p.cat.entries := by
  unfold moveReadOutcome
  split
  · rfl
  · simp

theorem readBackOutcome_kept (unit page errors i : Nat) (h : CatalogueKept es p) :
    CatalogueKept es (readBackOutcome unit page errors i p) := by
  unfold readBackOutcome
  dsimp only
  repeat' split
  · exact readBackPage_kept _ _ _ _ _ h
  · exact readBackFailed_kept _ _ h
  · exact h
  · exact h

theorem cuReadDone_kept (unit page errors : Nat) (h : CatalogueKept es p) : CatalogueKept es (cuReadDone unit page errors p) := by
  unfold cuReadDone
  split
  · exact cuResume_kept h fun _ hq => hq.of_entries (moveReadOutcome_entries ..)
  · exact cuResume_kept h fun _ hq => readBackOutcome_kept _ _ _ _ hq
  · exact h

theorem cuProgramDone_kept (unit page : Nat) (data : List Byte) (o : ProgOutcome) (h : CatalogueKept es p) :
    CatalogueKept es (cuProgramDone unit page data o p) := by
  unfold cuProgramDone
  split
  · exact cuResume_kept h fun _ hq => hq.of_entries (programOutcome_entries ..)
  · exact cuResume_kept h fun _ hq => hq.of_entries (moveProgramOutcome_entries ..)
  · exact h

theorem cuSlotDone_kept (unit slot : Nat) (data : List Byte) (o : ProgOutcome) (h : CatalogueKept es p) :
    CatalogueKept es (cuSlotDone unit slot data o p) := by
  unfold cuSlotDone
  split
  · exact cuResume_kept h fun _ hq => hq.of_entries (slotOutcome_entries ..)
  · exact h

theorem cuEraseDone_kept (unit : Nat) (o : EraseOutcome) (h : CatalogueKept es p) : CatalogueKept es (cuEraseDone unit o p) := by
  unfold cuEraseDone
  split
  · exact cuResume_kept h fun _ hq => hq.of_entries (ringOutcome_entries ..)
  · exact cuResume_kept h fun _ hq => hq.of_entries (eraseOutcome_entries ..)
  · exact cuResume_kept h fun _ hq => hq.of_entries (sweepOutcome_entries ..)
  · exact h

end
end Sys2Proof.Machine
end

section
/-! The entries through the line, the lanes, the port and each command. -/
namespace Sys2Proof.Machine
section
variable {es : List Entry} {p : Part}

/-! ## The line -/

theorem restartAgeing_kept (h : CatalogueKept es p) : CatalogueKept es (restartAgeing p) := by
  simp only [CatalogueKept, restartAgeing, Part.withEntries_entries]
  exact EntriesKept.map h fun e => .ite (.of_same rfl rfl rfl rfl rfl) (.refl e)

theorem recompute_kept (h : CatalogueKept es p) : CatalogueKept es (recompute p) := h.of_entries (by simp)

theorem enterRunning_kept (h : CatalogueKept es p) : CatalogueKept es (enterRunning p) :=
  restartAgeing_kept (p := markFormat _) h

theorem settlingTest_kept (h : CatalogueKept es p) : CatalogueKept es (settlingTest p) := by
  unfold settlingTest
  repeat' split
  · exact recompute_kept (enterRunning_kept h)
  · exact h
  · exact h

theorem afterRecording_kept (h : CatalogueKept es p) : CatalogueKept es (afterRecording p) := settlingTest_kept (recompute_kept h)

theorem openLine_kept (G window : Nat) (h : CatalogueKept es p) : CatalogueKept es (openLine p G window) := by
  simp only [CatalogueKept, openLine, Part.raise_cat, recompute_cat]
  refine CatalogueKept.uncheck ?_ _
  exact h

theorem closeLine_kept (h : CatalogueKept es p) : CatalogueKept es (closeLine p) := by
  unfold closeLine
  repeat' split
  · exact recompute_kept (enterRunning_kept h)
  · exact recompute_kept h
  · exact recompute_kept h

theorem abandonLine_kept (h : CatalogueKept es p) : CatalogueKept es (abandonLine p) := by
  simp only [CatalogueKept, abandonLine, Part.raise_cat, recompute_cat]
  refine CatalogueKept.uncheck ?_ _
  exact h

theorem expireWindow_kept (h : CatalogueKept es p) : CatalogueKept es (expireWindow p) := recompute_kept (enterRunning_kept h)

theorem restoreStation_kept (n : Nat) (h : CatalogueKept es p) : CatalogueKept es (restoreStation p n) :=
  recompute_kept (CatalogueKept.uncheck (p := holdStation p n false) h _)

theorem expireVerdict_kept (k : Key) (h : CatalogueKept es p) : CatalogueKept es (expireVerdict p k) :=
  recompute_kept (EntriesKept.map h fun e => .ite (follows_stampVerdict _ _ e) (.refl e))

theorem lineOpen_kept (r : Request) (h : CatalogueKept es p) : CatalogueKept es (lineOpen p r) := by
  unfold lineOpen
  split
  · exact h
  · exact openLine_kept _ _ h

theorem lineClose_kept (r : Request) (h : CatalogueKept es p) : CatalogueKept es (lineClose p r) := by
  unfold lineClose
  split
  · exact h
  · exact closeLine_kept h

theorem lineAbandon_kept (r : Request) (h : CatalogueKept es p) : CatalogueKept es (lineAbandon p r) := by
  unfold lineAbandon
  split
  · exact h
  · exact abandonLine_kept h

theorem lineHoldOut_kept (r : Request) (h : CatalogueKept es p) : CatalogueKept es (lineHoldOut p r) := by
  unfold lineHoldOut
  split
  · exact h
  · exact recompute_kept (p := holdStation p _ true) h

theorem lineRestore_kept (r : Request) (h : CatalogueKept es p) : CatalogueKept es (lineRestore p r) := by
  unfold lineRestore
  split
  · exact h
  · exact restoreStation_kept _ h

/-- A line request changes verdicts at most. -/
theorem lineRequest_kept (r : Request) (h : CatalogueKept es p) : CatalogueKept es (lineRequest p r) := by
  unfold lineRequest
  split
  · exact h
  · split
    · exact lineOpen_kept r h
    · exact lineClose_kept r h
    · exact lineAbandon_kept r h
    · exact lineHoldOut_kept r h
    · exact lineRestore_kept r h
    · exact h

/-! ## The lanes -/

@[simp] theorem Part.setLane_cat (p : Part) (l : Lane) (x : LaneRegs) : (p.setLane l x).cat = p.cat := by cases l <;> rfl

@[simp] theorem releasePin_cat (p : Part) (l : Lane) : (releasePin p l).cat = p.cat := by
  unfold releasePin
  split <;> simp

@[simp] theorem endLane_cat (p : Part) (l : Lane) (r : Request) (c : Code) (items : List (Nat × List Byte)) (fs : List Finding) :
    (endLane p l r c items fs).cat = p.cat := by simp [endLane]

theorem recordVerdict_kept (s : LaneSetup) (t : Tally) (h : CatalogueKept es p) : CatalogueKept es (recordVerdict p s t) :=
  afterRecording_kept (h.modifyEntry _ fun e => (follows_stampVerdict p.line t.verdict e).trans (.of_same rfl rfl rfl rfl rfl))

theorem recordOverride_kept (s : LaneSetup) (h : CatalogueKept es p) : CatalogueKept es (recordOverride p s) :=
  afterRecording_kept (h.modifyEntry _ fun e => follows_stampVerdict _ _ e)

theorem checkNotice_kept (n : Notice) (h : CatalogueKept es p) : CatalogueKept es (checkNotice p n).1 := by
  unfold checkNotice
  repeat' split
  · exact h
  · exact recordVerdict_kept _ _ h
  · exact h
  · exact h
  · exact h

theorem admitNotice_kept (n : Notice) (h : CatalogueKept es p) : CatalogueKept es (admitNotice p n).1 := by
  unfold admitNotice
  dsimp only
  split
  · exact recordOverride_kept _ h
  · exact h

theorem closeLane_kept (l : Lane) (n : Notice) (sum : Summary) (h : CatalogueKept es p) : CatalogueKept es (closeLane p l n sum) := by
  unfold closeLane
  split
  · exact (admitNotice_kept n h).of_entries (by simp)
  · exact (checkNotice_kept n h).of_entries (by simp)

theorem captureFails_kept (l : Lane) (h : CatalogueKept es p) : CatalogueKept es (captureFails p l) := by
  unfold captureFails
  dsimp only
  split
  · exact closeLane_kept _ _ _ (h.of_entries (by simp))
  · exact h

theorem reportAtOnce_kept (d : DamageReport) (h : CatalogueKept es p) : CatalogueKept es (reportAtOnce d p) := by
  have all : ∀ (ds : List DamageReport) (q : Part), CatalogueKept es q → CatalogueKept es (ds.foldl (fun q d => applyReport d q) q) := by
    intro ds
    induction ds with
    | nil => exact fun _ hq => hq
    | cons d ds ih => exact fun q hq => ih _ (applyReport_kept d hq)
  exact all _ (p.withCat fun c => { c with reports := [] }) h

theorem openLane_kept (l : Lane) (r : Request) (h : CatalogueKept es p) : CatalogueKept es (openLane p l r) := by
  unfold openLane
  split
  · exact h.of_entries (by simp [answerEarly])
  · split
    · exact closeLane_kept _ _ _ h
    · exact h.of_entries (by simp [setUpLane])

theorem takeCheck_kept (kind : Kind) (h : CatalogueKept es p) : CatalogueKept es (takeCheck p kind) := by
  unfold takeCheck
  split
  · split
    · exact openLane_kept _ _ (h.of_entries (by simp))
    · exact h
  · exact h

theorem captureDone_kept (l : Lane) (host : List Host.Cell) (h : CatalogueKept es p) : CatalogueKept es (captureDone p l host) := by
  unfold captureDone
  dsimp only
  repeat' split
  · exact h.of_entries (by simp [askPage])
  · exact captureFails_kept _ h
  · exact h
  · exact h

theorem integrityFails_kept (l : Lane) (x : LaneRegs) (r : Request) (s : LaneSetup) (c : Nat) (h : CatalogueKept es p) :
    CatalogueKept es (integrityFails p l x r s c) :=
  closeLane_kept _ _ _ ((reportAtOnce_kept _ h).of_entries rfl)

theorem comparisonDone_kept (l : Lane) (x : LaneRegs) (r : Request) (s : LaneSetup) (base : List Byte) (h : CatalogueKept es p) :
    CatalogueKept es (comparisonDone p l x r s base) := by
  unfold comparisonDone
  dsimp only
  split
  · exact closeLane_kept (p := p.raise .watchHit) _ _ _ h
  · exact closeLane_kept _ _ _ h

theorem laneReadDone_kept (l : Lane) (unit page errors : Nat) (h : CatalogueKept es p) :
    CatalogueKept es (laneReadDone l unit page errors p) := by
  unfold laneReadDone
  dsimp only
  repeat' split
  · exact h.of_entries (by simp [askPage])
  · exact comparisonDone_kept _ _ _ _ _ (h.of_entries (by simp))
  · exact integrityFails_kept _ _ _ _ _ (h.of_entries (by simp))
  · exact integrityFails_kept _ _ _ _ _ (h.of_entries (by simp))
  · exact h

end

/-! ## The port -/

@[simp] theorem noteAsk_cat (e : Option BusEvent) (p : Part) : (noteAsk e p).cat = p.cat := by
  unfold noteAsk
  split <;> simp

@[simp] theorem advanceCursor_cat (p : Part) : (advanceCursor p).cat = p.cat := by
  unfold advanceCursor
  split <;> rfl

@[simp] theorem wipeDone_cat (b : Nat) (p : Part) : (wipeDone b p).cat = p.cat := by
  unfold wipeDone
  dsimp only
  split <;> simp

@[simp] theorem completionCounted_cat (c : Completion) (p : Part) : (completionCounted c p).cat = p.cat := by
  unfold completionCounted
  dsimp only
  split <;> rfl

/-- The entries of the part on a bus have come from es by acts that keep the catalogue. -/
def BusKept (es : List Entry) (b : Bus) : Prop := CatalogueKept es b.part

section
variable {es : List Entry} {b : Bus}

theorem busKept_start {p : Part} (io : List Xfer) (h : CatalogueKept es p) : BusKept es (Bus.start p io) := h

theorem busKept_heed (h : BusKept es b) : BusKept es b.heed := by
  unfold Bus.heed
  split
  · exact h
  · exact h

theorem busKept_settle (h : BusKept es b) : BusKept es b.settle := CatalogueKept.of_entries h (by simp [Bus.settle])

/-- A transfer that is over changes no entry, unless RESET# has taken them all. -/
theorem busKept_over (e : Option BusEvent) (went : Bool) (h : BusKept es b) : BusKept es (b.over e went) := by
  unfold Bus.over
  repeat' split
  · exact CatalogueKept.of_nil rfl
  all_goals exact h

theorem busKept_read (a n : Nat) (h : BusKept es b) : BusKept es (b.read a n).2 := by
  have hb : BusKept es (if b.up then b.heed else b) := by
    split
    · exact busKept_heed h
    · exact h
  unfold Bus.read
  dsimp only
  generalize (if b.up = true then b.heed else b) = c at hb ⊢
  split
  · exact busKept_over _ _ (busKept_settle hb)
  · exact hb

theorem foldl_hostWrite_cat (pieces : List (Nat × List Byte)) (p : Part) :
    (pieces.foldl (fun q x => q.hostWrite x.1 x.2) p).cat = p.cat := by
  induction pieces generalizing p with
  | nil => rfl
  | cons x xs ih => rw [List.foldl_cons, ih, Part.hostWrite_cat]

theorem busKept_write (pieces : List (Nat × List Byte)) (h : BusKept es b) : BusKept es (b.write pieces) := by
  have hb : BusKept es (if b.up then b.heed else b) := by
    split
    · exact busKept_heed h
    · exact h
  unfold Bus.write
  dsimp only
  generalize (if b.up = true then b.heed else b) = c at hb ⊢
  split
  · refine busKept_over _ _ ?_
    split
    · exact CatalogueKept.of_entries (busKept_settle hb) (by simp [foldl_hostWrite_cat])
    · exact busKept_settle hb
  · exact hb

theorem busKept_act {f : Part → Part} (hf : ∀ p, CatalogueKept es p → CatalogueKept es (f p)) (h : BusKept es b) :
    BusKept es (b.act f) := by
  unfold Bus.act
  split
  · exact hf _ h
  · exact h

theorem busKept_finish (h : BusKept es b) : CatalogueKept es b.finish := busKept_heed h

theorem busKept_writeItems (items : List StatusItem) (h : BusKept es b) : BusKept es (b.writeItems items) :=
  busKept_write _ (busKept_act (fun _ hp => hp) (busKept_write _ h))

theorem busKept_flushStatus (h : BusKept es b) : BusKept es b.flushStatus := by
  unfold Bus.flushStatus
  split
  · exact busKept_writeItems _ h
  · exact h

theorem busKept_readEach (as : List Nat) (h : BusKept es b) : BusKept es (b.readEach as).2 := by
  induction as generalizing b with
  | nil => exact h
  | cons a as ih => exact ih (busKept_read a 1 h)

theorem busKept_foldl {α : Type} {f : Bus → α → Bus} (hf : ∀ c x, BusKept es c → BusKept es (f c x)) (xs : List α)
    (h : BusKept es b) : BusKept es (xs.foldl f b) := by
  induction xs generalizing b with
  | nil => exact h
  | cons x xs ih => exact ih (hf b x h)

theorem busKept_wipeCheck (bundle : Nat) (h : BusKept es b) : BusKept es (b.wipeCheck bundle) := by
  unfold Bus.wipeCheck
  split
  · have hr := busKept_readEach (sheetNumbers.map (b.part.port.sheetAddress bundle)) h
    dsimp only
    split
    · exact busKept_act (fun _ hp => hp.of_entries (by simp)) (busKept_foldl (fun _ _ hc => busKept_write _ hc) _ hr)
    · exact hr
  · exact h

theorem busKept_writeCompletion (c : Completion) {also : Part → Part} (ha : ∀ p, CatalogueKept es p → CatalogueKept es (also p))
    (h : BusKept es b) : BusKept es (b.writeCompletion c also) := by
  unfold Bus.writeCompletion
  split
  · have hf := busKept_flushStatus h
    have hres : ∀ {d : Bus} (o : Option (List Byte)) (a : Nat), BusKept es d →
        BusKept es (match o with
          | some r => d.write [(a, r)]
          | none => d) := by
      intro d o a hd
      cases o with
      | none => exact hd
      | some r => exact busKept_write _ hd
    exact busKept_wipeCheck _ (busKept_act (fun p hp => ha _ (CatalogueKept.of_entries hp (by simp)))
      (busKept_write _ (busKept_write _ (hres _ _ (hres _ _ hf)))))
  · exact h

theorem busKept_nextCompletion (h : BusKept es b) : BusKept es b.nextCompletion := by
  unfold Bus.nextCompletion
  split
  · exact h
  · exact busKept_writeCompletion _ (fun _ hp => hp) h

theorem busKept_drain (n : Nat) (h : BusKept es b) : BusKept es (Bus.drain n b) := by
  induction n generalizing b with
  | zero => exact h
  | succ n ih =>
    unfold Bus.drain
    split
    · exact ih (busKept_nextCompletion h)
    · exact h

theorem busKept_answer (code : Code) (quiet : Bool) (h : BusKept es b) : BusKept es (b.answer code quiet) :=
  busKept_writeCompletion _ (fun _ hp => hp.of_entries (by simp)) (busKept_drain _ h)

theorem takeAct_kept (sheet : List Byte) (kind : Kind) {p : Part} (h : CatalogueKept es p) :
    CatalogueKept es (takeAct sheet kind p) := by
  have ha : CatalogueKept es (advanceCursor p) := h.of_entries (by simp)
  unfold takeAct giveToOwner
  dsimp only
  split
  · exact ha
  · exact ha
  · exact lineRequest_kept _ ha

theorem busKept_posted (sheet : List Byte) (h : BusKept es b) : BusKept es (b.posted sheet).1 := by
  unfold Bus.posted
  repeat' split
  · exact busKept_answer _ _ h
  · exact busKept_act (fun _ hp => takeAct_kept _ _ hp) (busKept_write _ h)
  · exact busKept_act (fun _ hp => hp) h

theorem busKept_unposted (state : List Byte) (h : BusKept es b) : BusKept es (b.unposted state).1 := by
  unfold Bus.unposted
  split
  · exact busKept_act (fun _ hp => hp) h
  · exact busKept_answer _ _ h

theorem busKept_sheet (h : BusKept es b) : BusKept es b.sheet.1 := by
  have h1 := busKept_read (b.part.port.sheetAddress b.part.port.cursorB b.part.port.cursorS) 1 h
  have h2 := busKept_read (b.part.port.sheetAddress b.part.port.cursorB b.part.port.cursorS) 256 h1
  unfold Bus.sheet
  dsimp only
  repeat' split
  · exact busKept_posted _ h2
  · exact busKept_unposted _ h2
  · exact h2
  · exact busKept_unposted _ h1
  · exact h1

theorem busKept_sheets (n : Nat) (h : BusKept es b) : BusKept es (Bus.sheets n b) := by
  induction n generalizing b with
  | zero => exact h
  | succ n ih =>
    unfold Bus.sheets
    dsimp only
    repeat' split
    · exact ih (busKept_sheet h)
    · exact busKept_sheet h
    · exact busKept_act (fun _ hp => hp) h
    · exact h

theorem busKept_scanOnce (h : BusKept es b) : BusKept es b.scanOnce :=
  busKept_sheets _ (busKept_foldl (fun _ _ hc => busKept_wipeCheck _ hc) _ h)

theorem busKept_scans (n : Nat) (h : BusKept es b) : BusKept es (Bus.scans n b) := by
  induction n generalizing b with
  | zero => exact h
  | succ n ih =>
    unfold Bus.scans
    split
    · exact ih (busKept_scanOnce h)
    · exact h

end

section
variable {es : List Entry} {p : Part}

theorem ite_kept {c : Prop} [Decidable c] {q : Part} (hq : CatalogueKept es q) (h : CatalogueKept es p) :
    CatalogueKept es (if c then q else p) := by
  split
  · exact hq
  · exact h

theorem makeScan_kept (io : List Xfer) (h : CatalogueKept es p) : CatalogueKept es (makeScan p io) := by
  unfold makeScan
  split
  · exact busKept_finish (busKept_scans _ (busKept_start io h))
  · exact h

theorem takeLineSheet_kept (kind : Kind) (head : SheetHead) (params : List (Nat × List Byte)) (h : CatalogueKept es p) :
    CatalogueKept es (takeLineSheet p kind head params) := by
  unfold takeLineSheet
  split
  · exact busKept_finish (busKept_posted _ (busKept_start (p := p.hostWrite _ _) [] h))
  · exact h

theorem enablePort_kept (io : List Xfer) (h : CatalogueKept es p) : CatalogueKept es (enablePort p io) :=
  busKept_finish (busKept_act (fun _ hp => hp.of_entries (by simp))
    (busKept_writeItems _ (busKept_start (p := handOver (beginEnablement p)) io h)))

theorem writeExctl_kept (v : Reg) (io : List Xfer) (h : CatalogueKept es p) : CatalogueKept es (writeExctl p v io) := by
  unfold writeExctl
  dsimp only
  repeat' split
  · exact enablePort_kept io h
  all_goals exact h

theorem writeExbase_kept (high : Bool) (v : Reg) (h : CatalogueKept es p) : CatalogueKept es (writeExbase p high v) := by
  unfold writeExbase
  repeat' split
  all_goals exact h

theorem writeRegister_kept (w : RegWrite) (io : List Xfer) (h : CatalogueKept es p) : CatalogueKept es (writeRegister p w io) := by
  unfold writeRegister
  split
  · split
    · exact writeExbase_kept _ _ h
    · exact writeExbase_kept _ _ h
    · exact writeExctl_kept _ _ h
    · exact h.of_entries (by simp)
    all_goals exact h
  · exact h

theorem writeOldestCompletion_kept (io : List Xfer) (h : CatalogueKept es p) : CatalogueKept es (writeOldestCompletion p io) := by
  unfold writeOldestCompletion
  split
  · exact busKept_finish (busKept_nextCompletion (busKept_start io h))
  · exact h

theorem writeStatus_kept (io : List Xfer) (h : CatalogueKept es p) : CatalogueKept es (writeStatus p io) := by
  unfold writeStatus
  split
  · exact busKept_finish (busKept_flushStatus (busKept_start io h))
  · exact h

/-! ## The catalogue requests and the unit's own work -/

@[simp] theorem takeHead_entries (p : Part) (r : Request) (rest : List Request) : (takeHead p r rest).cat.entries = p.cat.entries := by
  simp [takeHead]

theorem whenPassed_kept (c : Option Code) {go : Part → Part} (hgo : ∀ q, CatalogueKept es q → CatalogueKept es (go q))
    (h : CatalogueKept es p) : CatalogueKept es (whenPassed c p go) := by
  cases c with
  | none => exact hgo p h
  | some c => exact h

/-- A request keeps the catalogue when its own part does. -/
theorem beginHead_kept (wanted : Request → Bool) {go : Request → Part → Part}
    (hgo : ∀ r q, CatalogueKept es q → CatalogueKept es (go r q)) (h : CatalogueKept es p) :
    CatalogueKept es (beginHead p wanted go) := by
  unfold beginHead
  split
  · exact h
  · dsimp only
    split
    · exact cuWork_kept (whenPassed_kept _ (hgo _) (h.of_entries (by simp)))
    · exact h

theorem beginOwn_kept (turn : Turn) (work : CuWork) (ops : List CuOp) (h : CatalogueKept es p) :
    CatalogueKept es (beginOwn p turn work ops) := by
  unfold beginOwn
  split
  · exact cuWork_kept (p := p.withCat _) h
  · exact h

theorem beginCommit_kept (r : Request) (h : CatalogueKept es p) : CatalogueKept es (beginCommit r p) := by
  refine whenPassed_kept _ (fun q hq => ?_) h
  dsimp only
  split <;> exact hq

theorem beginEnrol_kept (r : Request) (h : CatalogueKept es p) : CatalogueKept es (beginEnrol r p) :=
  whenPassed_kept _ (fun _ hq => hq) h

theorem beginDiscard_kept (r : Request) (h : CatalogueKept es p) : CatalogueKept es (beginDiscard r p) :=
  whenPassed_kept _ (fun _ hq => hq) h

theorem beginRevert_kept (r : Request) (h : CatalogueKept es p) : CatalogueKept es (beginRevert r p) :=
  whenPassed_kept _ (fun _ hq => hq) h

theorem beginRetire_kept (r : Request) (h : CatalogueKept es p) : CatalogueKept es (beginRetire r p) :=
  whenPassed_kept _ (fun _ hq => hq) h

theorem beginRuleDelete_kept (r : Request) (h : CatalogueKept es p) : CatalogueKept es (beginRuleDelete r p) :=
  whenPassed_kept _ (fun _ hq => hq) h

theorem beginDefine_kept (r : Request) (h : CatalogueKept es p) : CatalogueKept es (beginDefine r p) :=
  whenPassed_kept _ (fun _ hq => hq) h

theorem beginUndefine_kept (r : Request) (h : CatalogueKept es p) : CatalogueKept es (beginUndefine r p) :=
  whenPassed_kept _ (fun _ hq => hq) h

theorem beginParamSet_kept (r : Request) (h : CatalogueKept es p) : CatalogueKept es (beginParamSet r p) :=
  whenPassed_kept _ (fun _ hq => hq) h

theorem beginReadBaseline_kept (r : Request) (h : CatalogueKept es p) : CatalogueKept es (beginReadBaseline r p) := by
  refine whenPassed_kept _ (fun q hq => ?_) h
  repeat' split
  all_goals exact hq

@[simp] theorem writeListing_cat (r : Request) (i : Nat) (out : List Entry) (p : Part) : (writeListing p r i out).1.cat = p.cat := by
  induction out generalizing p i with
  | nil => rfl
  | cons e out ih =>
    unfold writeListing
    dsimp only
    split
    · rw [ih, Part.hostWrite_cat]
    · rfl

theorem goOnListing_kept (upTo : Option Nat) (i : Nat) (r : Request) (h : CatalogueKept es p) :
    CatalogueKept es (goOnListing upTo i r p) := by
  have hw := fun out => h.of_entries (q := (writeListing p r i out).1) (by simp)
  unfold goOnListing
  dsimp only
  repeat' split
  all_goals exact hw _

theorem beginClearPeaks_kept (r : Request) (h : CatalogueKept es p) : CatalogueKept es (beginClearPeaks r p) :=
  whenPassed_kept _ (fun _ hq => EntriesKept.map hq fun e => .ite (follows_emptyPeaks e) (.refl e)) h

theorem beginRuleLoad_kept (r : Request) (h : CatalogueKept es p) : CatalogueKept es (beginRuleLoad r p) := by
  refine whenPassed_kept _ (fun q hq => ?_) h
  dsimp only
  split <;> exact hq

theorem enterFormatting_entries (p : Part) : (enterFormatting p).cat.entries = p.cat.entries := by
  unfold enterFormatting
  dsimp only
  split <;> simp

theorem beginFormat_kept (r : Request) (h : CatalogueKept es p) : CatalogueKept es (beginFormat r p) := by
  unfold beginFormat
  split
  · exact h
  · exact h.of_entries (by simp [enterFormatting_entries])

theorem enrolRead_entries (r : Request) (image : List Byte) (p : Part) : (enrolRead r image p).cat.entries = p.cat.entries := by
  unfold enrolRead
  dsimp only
  split <;> rfl

theorem rulesRead_entries (r : Request) (array : List Byte) (p : Part) : (rulesRead r array p).cat.entries = p.cat.entries := by
  unfold rulesRead
  dsimp only
  split <;> rfl

theorem hostReadDone_kept (host : List Host.Cell) (h : CatalogueKept es p) : CatalogueKept es (hostReadDone host p) := by
  unfold hostReadDone
  split
  · refine ite_kept (cuResume_kept h fun q hq => hq.of_entries ?_) h
    dsimp only
    split
    · split
      · exact rulesRead_entries ..
      · exact enrolRead_entries ..
    · rfl
  · exact h

theorem catalogueBufferFails_kept (h : CatalogueKept es p) : CatalogueKept es (catalogueBufferFails p) := by
  unfold catalogueBufferFails
  repeat' split
  · exact cuResume_kept h fun _ hq => hq
  · exact cuResume_kept h fun _ hq => hq
  all_goals exact h

theorem carryOnList_kept (upTo : Option Nat) (h : CatalogueKept es p) : CatalogueKept es (carryOnList upTo p) := by
  unfold carryOnList
  repeat' split
  · exact cuResume_kept h fun _ hq => goOnListing_kept _ _ _ hq
  · exact h
  · exact beginHead_kept _ (fun r q hq => whenPassed_kept _ (fun _ hq => goOnListing_kept _ _ _ hq) hq) h

theorem takeReport_kept (h : CatalogueKept es p) : CatalogueKept es (takeReport p) := by
  unfold takeReport
  repeat' split
  · exact h
  · exact applyReport_kept _ h
  · exact h

/-! ## The ends of bank operations -/

theorem endPageRead_kept (b : Bank) (errors : Nat) (h : CatalogueKept es p) : CatalogueKept es (endPageRead b errors p) := by
  unfold endPageRead
  repeat' split
  · exact laneReadDone_kept _ _ _ _ (p := finishHead p b) h
  · exact h
  · exact cuReadDone_kept _ _ _ (p := finishHead p b) h
  · exact h
  · exact h

theorem endPageProgram_kept (b : Bank) (o : ProgOutcome) (h : CatalogueKept es p) : CatalogueKept es (endPageProgram b o p) := by
  unfold endPageProgram
  repeat' split
  · exact cuProgramDone_kept _ _ _ _ (p := finishHead p b) h
  · exact h
  · exact h

theorem endSlotProgram_kept (b : Bank) (o : ProgOutcome) (h : CatalogueKept es p) : CatalogueKept es (endSlotProgram b o p) := by
  unfold endSlotProgram
  repeat' split
  · exact cuSlotDone_kept _ _ _ _ (p := finishHead p b) h
  · exact h
  · exact h

theorem endErase_kept (b : Bank) (o : EraseOutcome) (h : CatalogueKept es p) : CatalogueKept es (endErase b o p) := by
  unfold endErase
  repeat' split
  · exact cuEraseDone_kept _ _ (p := finishHead p b) h
  · exact h
  · exact h

/-! ## The commands -/

theorem assertReset_kept (low : ResetLow) (torn : TornOps) (h : CatalogueKept es p) : CatalogueKept es (assertReset low torn p) := by
  cases low with
  | powerOn => exact ite_kept h (.of_nil rfl)
  | pulse ns taken => exact ite_kept (.of_nil rfl) h

theorem losePower_kept (torn : TornOps) (h : CatalogueKept es p) : CatalogueKept es (losePower torn p) := by
  unfold losePower
  split
  · exact .of_nil rfl
  · exact h

theorem exchangeFails_kept (h : CatalogueKept es p) : CatalogueKept es (exchangeFails p) := by
  unfold exchangeFails
  split <;> exact h

theorem bufferFails_kept (u : BufferUser) (h : CatalogueKept es p) : CatalogueKept es (bufferFails u p) := by
  unfold bufferFails
  repeat' split
  · exact captureFails_kept _ h
  · exact catalogueBufferFails_kept h
  · exact h

theorem readTimesOut_kept (t : TimeoutAt) (h : CatalogueKept es p) : CatalogueKept es (readTimesOut t p) := by
  cases t with
  | exchange => exact exchangeFails_kept h
  | buffer u => exact bufferFails_kept u h

theorem changeKeysw_kept (level : Bool) (h : CatalogueKept es p) : CatalogueKept es (changeKeysw level p) := by
  unfold changeKeysw
  dsimp only
  repeat' split
  all_goals exact h

theorem debounceExpires_kept (h : CatalogueKept es p) : CatalogueKept es (debounceExpires p) := by
  unfold debounceExpires
  dsimp only
  repeat' split
  all_goals exact h

theorem scanTimerExpires_kept (h : CatalogueKept es p) : CatalogueKept es (scanTimerExpires p) := by
  unfold scanTimerExpires
  split
  · exact h.of_entries (by simp)
  · exact h

theorem secondPasses_kept (h : CatalogueKept es p) : CatalogueKept es (secondPasses p) := by
  unfold secondPasses
  split <;> exact h

theorem windowExpires_kept (h : CatalogueKept es p) : CatalogueKept es (windowExpires p) := by
  unfold windowExpires
  repeat' split
  · exact expireWindow_kept h
  · exact h
  · exact expireWindow_kept h
  · exact h
  · exact h

theorem verdictExpires_kept (k : Key) (h : CatalogueKept es p) : CatalogueKept es (verdictExpires k p) := by
  unfold verdictExpires
  split
  · exact expireVerdict_kept k h
  · exact h

/-- A command with its effect on the part keeps the catalogue when the effect does. -/
theorem apply_kept {s t : State} {f : Part → Part} (hf : ∀ {es : List Entry} {p : Part}, CatalogueKept es p → CatalogueKept es (f p))
    (h : s.apply f = .next t) : CatalogueKept s.part.cat.entries t.part := by
  cases h
  exact hf (EntriesKept.refl _)

/-- Every command but RESET_RELEASE keeps keys distinct and generations in order. -/
theorem exec_kept {i : Instr} {s t : State} (hi : ∀ env, i ≠ .resetRelease env) (h : exec i s = .next t) :
    CatalogueKept s.part.cat.entries t.part := by
  cases i with
  | resetRelease env => exact absurd rfl (hi env)
  | resetAssert low torn => exact apply_kept (assertReset_kept low torn) h
  | pcieLinkReset => exact apply_kept (f := setMastering false) (fun hp => hp) h
  | powerLoss torn => exact apply_kept (losePower_kept torn) h
  | busMasteringSwitch on => exact apply_kept (f := setMastering on) (fun hp => hp) h
  | exchangeTransferFault why => exact apply_kept exchangeFails_kept h
  | readCompletionTimeout what => exact apply_kept (readTimesOut_kept what) h
  | bufferTransferFailure user => exact apply_kept (bufferFails_kept user) h
  | exbaseWrite high value => exact apply_kept (fun hp => ite_kept (writeExbase_kept high value hp) hp) h
  | exctlConfig value io => exact apply_kept (fun hp => ite_kept (writeExctl_kept value io hp) hp) h
  | portEnable count interval io => exact apply_kept (fun hp => ite_kept (writeExctl_kept _ io hp) hp) h
  | portDisable count interval => exact apply_kept (fun hp => ite_kept (writeExctl_kept _ [] hp) hp) h
  | wake value => exact apply_kept (fun hp => ite_kept (hp.of_entries (by simp)) hp) h
  | causeClear value => exact apply_kept (fun hp => ite_kept (q := writeCause _ value) hp hp) h
  | causecfgWrite value => exact apply_kept (fun hp => ite_kept (q := writeCausecfg _ value) hp hp) h
  | registerWriteOther w => exact apply_kept (writeRegister_kept w []) h
  | scanTimerTick => exact apply_kept scanTimerExpires_kept h
  | scan io => exact apply_kept (makeScan_kept io) h
  | completionWrite io => exact apply_kept (writeOldestCompletion_kept io) h
  | statusUpdate io => exact apply_kept (writeStatus_kept io) h
  | keyswChange level => exact apply_kept (changeKeysw_kept level) h
  | keyswDebounceExpiry => exact apply_kept debounceExpires_kept h
  | secondsTick => exact apply_kept secondPasses_kept h
  | windowExpiry => exact apply_kept windowExpires_kept h
  | stalenessExpiry key => exact apply_kept (verdictExpires_kept key) h
  | openChangeover head target window => exact apply_kept (takeLineSheet_kept _ _ _) h
  | closeChangeover head => exact apply_kept (takeLineSheet_kept _ _ _) h
  | abandonChangeover head => exact apply_kept (takeLineSheet_kept _ _ _) h
  | holdOut head station => exact apply_kept (takeLineSheet_kept _ _ _) h
  | restore head station => exact apply_kept (takeLineSheet_kept _ _ _) h
  | enrol => exact apply_kept (beginHead_kept _ fun r _ => beginEnrol_kept r) h
  | commit => exact apply_kept (beginHead_kept _ fun r _ => beginCommit_kept r) h
  | discard => exact apply_kept (beginHead_kept _ fun r _ => beginDiscard_kept r) h
  | revert => exact apply_kept (beginHead_kept _ fun r _ => beginRevert_kept r) h
  | retire => exact apply_kept (beginHead_kept _ fun r _ => beginRetire_kept r) h
  | readBaseline => exact apply_kept (beginHead_kept _ fun r _ => beginReadBaseline_kept r) h
  | list upTo => exact apply_kept (carryOnList_kept upTo) h
  | clearPeaks => exact apply_kept (beginHead_kept _ fun r _ => beginClearPeaks_kept r) h
  | ruleLoad => exact apply_kept (beginHead_kept _ fun r _ => beginRuleLoad_kept r) h
  | ruleSetDelete => exact apply_kept (beginHead_kept _ fun r _ => beginRuleDelete_kept r) h
  | stationDefine => exact apply_kept (beginHead_kept _ fun r _ => beginDefine_kept r) h
  | stationUndefine => exact apply_kept (beginHead_kept _ fun r _ => beginUndefine_kept r) h
  | paramSet => exact apply_kept (beginHead_kept _ fun r _ => beginParamSet_kept r) h
  | formatStore => exact apply_kept (beginHead_kept _ fun r _ => beginFormat_kept r) h
  | persistenceMarkWrite => exact apply_kept (beginOwn_kept _ _ _) h
  | erasePendingUnits => exact apply_kept (beginOwn_kept _ _ _) h
  | reclaimStep => exact apply_kept (beginOwn_kept _ _ _) h
  | snapshot => exact apply_kept (beginOwn_kept _ _ _) h
  | damagedReport => exact apply_kept takeReport_kept h
  | check => exact apply_kept (takeCheck_kept _) h
  | admission => exact apply_kept (takeCheck_kept _) h
  | captureComplete lane host => exact apply_kept (captureDone_kept lane host) h
  | pageReadDone bank errors => exact apply_kept (endPageRead_kept bank errors) h
  | pageProgramDone bank outcome => exact apply_kept (endPageProgram_kept bank outcome) h
  | slotProgramDone bank outcome => exact apply_kept (endSlotProgram_kept bank outcome) h
  | eraseDone bank outcome => exact apply_kept (endErase_kept bank outcome) h
  | enrolmentBufferReadDone host => exact apply_kept (hostReadDone_kept host) h

end

/-- Settles O3: no command but RESET_RELEASE breaks the order of R2. -/
theorem generationOrderIsKept : Obligations.GenerationOrderIsKept := by
  intro s t hs ho h
  rcases step_cases h with ⟨-, rfl⟩ | ⟨c, cs, hp, hc⟩
  · exact ho
  · exact (exec_kept (fun env he => hs env cs (he ▸ hp)) hc).order ho

end Sys2Proof.Machine
end

section
/-! Mount rebuilds the entries with distinct keys (R1, R126, R132). -/
namespace Sys2Proof.Machine

/-- The keys of the entries being rebuilt are distinct. -/
def Replay.distinct (x : Replay) : Prop := (x.entries.map EntryImage.key).Nodup

/-- An ENTRY record replaces the entry with its key, or adds one where there is none. -/
theorem distinct_putEntry {x : Replay} (e : EntryImage) (h : x.distinct) : (x.putEntry e).distinct := by
  unfold Replay.distinct Replay.putEntry
  dsimp only
  split
  · have hk : (x.entries.map fun y => if y.key = e.key then e else y).map EntryImage.key = x.entries.map EntryImage.key := by
      rw [List.map_map]
      refine List.map_congr_left fun y _ => ?_
      by_cases hy : y.key = e.key <;> simp [hy]
    rw [hk]
    exact h
  · rename_i hnone
    rw [List.map_append, List.nodup_append]
    exact ⟨h, by simp, by simpa using hnone⟩

theorem distinct_foldl_putEntry (held : List EntryImage) {x : Replay} (h : x.distinct) : (held.foldl Replay.putEntry x).distinct := by
  induction held generalizing x with
  | nil => exact h
  | cons e held ih => exact ih (distinct_putEntry e h)

theorem distinct_apply {x : Replay} (r : JournalRecord) (h : x.distinct) : (x.apply r).distinct := by
  cases r with
  | entry form e => exact distinct_putEntry e h
  | entryGone k => exact h.sublist (List.filter_sublist.map _)
  | _ => exact h

theorem distinct_meet {x : Replay} (r : JournalRecord) (h : x.distinct) : (x.meet r).distinct := by
  unfold Replay.meet
  split
  · exact distinct_apply r h
  · split
    · split
      · exact h
      · exact distinct_apply _ (x := { x with group := none }) h
    · split
      · exact distinct_foldl_putEntry _ (x := { x with group := none }) h
      · exact h
    · exact distinct_apply _ (x := { x with group := none }) h

theorem distinct_replayFrom (vs : List ValidSlot) (hi fuel n : Nat) {x : Replay} (h : x.distinct) :
    (replayFrom vs hi fuel n x).1.distinct := by
  induction fuel generalizing n x with
  | zero => exact h
  | succ fuel ih =>
    unfold replayFrom
    repeat' split
    · exact ih _ (distinct_meet _ h)
    · exact h
    · exact h

/-- The keys of a part's entries are distinct (R1). -/
def Part.keysDistinct (p : Part) : Prop := (p.cat.entries.map Entry.key).Nodup

theorem CatalogueKept.keysDistinct {p q : Part} (h : CatalogueKept p.cat.entries q) (hp : p.keysDistinct) : q.keysDistinct := h.keys hp

theorem rebuild_keysDistinct (env : MountEnv) (R : Nat) {x : Replay} (p : Part) (h : x.distinct) : (rebuild env R x p).keysDistinct := by
  have he : (rebuild env R x p).cat.entries = x.entries.mapIdx mountedEntry := by
    simp only [rebuild, countLive, Part.withStore_cat]
    split <;> rfl
  have hk : (x.entries.mapIdx mountedEntry).map Entry.key = x.entries.map EntryImage.key := by
    refine List.ext_getElem (by simp) fun i _ _ => ?_
    simp [mountedEntry]
  rwa [Part.keysDistinct, he, hk]

/-- What mount rebuilds has distinct keys; an UNFORMATTED part has the entries it had. -/
theorem mountBegin_keysDistinct (env : MountEnv) {p : Part} (h : p.keysDistinct) : (mountBegin env p).keysDistinct := by
  unfold mountBegin
  dsimp only
  split
  · exact h
  · split
    all_goals exact rebuild_keysDistinct env _ _ (distinct_replayFrom _ _ _ _ List.nodup_nil)

theorem answerOne_keysDistinct (a : Answers) (b : Bank) (op : BankOp) {p : Part} (h : p.keysDistinct) :
    (answerOne a b op p).1.keysDistinct := by
  have hf : CatalogueKept p.cat.entries (finishHead p b) := EntriesKept.refl _
  cases op with
  | eraseUnit u => exact (cuEraseDone_kept u _ hf).keysDistinct h
  | programSlot u m data => exact (cuSlotDone_kept u m data _ hf).keysDistinct h
  | programPage u page data => exact h
  | readPage u page => exact h

theorem mount_keysDistinct (env : MountEnv) {p : Part} (h : p.keysDistinct) : (mount env p).1.keysDistinct := by
  have hb := mountBegin_keysDistinct env h
  have hrun : (if (mountBegin env p).cat.work = .mount then cuRun Config.workBound (mountBegin env p)
      else mountBegin env p).keysDistinct := by
    split
    · exact (cuRun_kept _ (EntriesKept.refl _ : CatalogueKept (mountBegin env p).cat.entries _)).keysDistinct hb
    · exact hb
  unfold mount
  dsimp only
  generalize (if (mountBegin env p).cat.work = .mount then cuRun Config.workBound (mountBegin env p) else mountBegin env p) = q
    at hrun ⊢
  have hdrive := mountDrive_keeps Part.keysDistinct (fun a b op q hq => answerOne_keysDistinct a b op hq) mountBound
    { erases := env.erases, slots := env.slots, order := env.order, cut := env.cut } q hrun
  split
  · exact hdrive
  · simpa [Part.keysDistinct] using hdrive

theorem releaseReset_keysDistinct (env : MountEnv) {p : Part} (h : p.keysDistinct) : (releaseReset env p).keysDistinct := by
  unfold releaseReset
  split
  · dsimp only
    split
    · exact List.nodup_nil
    · exact mount_keysDistinct env h
  · exact h

/-- Settles O4: every command keeps keys distinct, RESET_RELEASE by its replay. -/
theorem keysStayDistinct : Obligations.KeysStayDistinct := by
  intro s t hk h
  rcases step_cases h with ⟨-, rfl⟩ | ⟨c, cs, -, hc⟩
  · exact hk
  · by_cases hr : ∃ env, c = .resetRelease env
    · obtain ⟨env, rfl⟩ := hr
      cases hc
      exact releaseReset_keysDistinct env hk
    · exact (exec_kept (fun env he => hr ⟨env, he⟩) hc).keys hk

end Sys2Proof.Machine
end

section
/-! The work of the Catalogue Unit run for a known list of operations: what the run-flag test, the hand-over and the end of a request
leave as it is, how a request begins, asks for its records, and ends. -/
namespace Sys2Proof.Machine

/-! ## The run-flag test and the hand-over -/

@[simp] theorem handOver_completions (p : Part) : (handOver p).port.completions = p.port.completions := rfl

/-- The run-flag test changes the run flag and the passed-over marks (R117, R118). -/
theorem reclaimTest_cases (p : Part) : reclaimTest p = p ∨ reclaimTest p = p.withStore Store.stopRun ∨
    reclaimTest p = p.withStore fun s => { s with runFlag := true } := by
  unfold reclaimTest
  repeat' split
  all_goals simp

section
variable {α : Type} (f : Part → α) (p : Part)

/-- What does not look at the store, the run-flag test leaves as it is. -/
theorem reclaimTest_frame (hf : ∀ g, f (p.withStore g) = f p) : f (reclaimTest p) = f p := by
  rcases reclaimTest_cases p with h | h | h <;> rw [h]
  · exact hf _
  · exact hf _

/-- What looks neither at the store nor at the port's copy, the test at a change of the FREE count leaves as it is. -/
theorem freeTested_frame (hf : ∀ g, f (p.withStore g) = f p) (hh : ∀ q, f (handOver q) = f q) (old : Part) :
    f (freeTested old p) = f p := by
  unfold freeTested
  split
  · rfl
  · rw [hh, reclaimTest_frame f p hf]

/-- And so does what follows a piece of the unit's work. -/
theorem cuSettle_frame (hf : ∀ g, f (p.withStore g) = f p) (hh : ∀ q, f (handOver q) = f q) : f (cuSettle p) = f p := by
  unfold cuSettle
  rw [hh]
  split
  · exact reclaimTest_frame f p hf
  · rfl

end

@[simp] theorem freeTested_line (old p : Part) : (freeTested old p).line = p.line := freeTested_frame _ p (fun _ => rfl) (fun _ => rfl) old
@[simp] theorem freeTested_rules (old p : Part) : (freeTested old p).rules = p.rules := freeTested_frame _ p (fun _ => rfl) (fun _ => rfl) old
@[simp] theorem freeTested_engine (old p : Part) : (freeTested old p).engine = p.engine := freeTested_frame _ p (fun _ => rfl) (fun _ => rfl) old
@[simp] theorem freeTested_host (old p : Part) : (freeTested old p).host = p.host := freeTested_frame _ p (fun _ => rfl) (fun _ => rfl) old
@[simp] theorem freeTested_completions (old p : Part) : (freeTested old p).port.completions = p.port.completions :=
  freeTested_frame (fun q => q.port.completions) p (fun _ => rfl) (fun _ => rfl) old

@[simp] theorem cuSettle_line (p : Part) : (cuSettle p).line = p.line := cuSettle_frame _ p (fun _ => rfl) (fun _ => rfl)
@[simp] theorem cuSettle_rules (p : Part) : (cuSettle p).rules = p.rules := cuSettle_frame _ p (fun _ => rfl) (fun _ => rfl)
@[simp] theorem cuSettle_engine (p : Part) : (cuSettle p).engine = p.engine := cuSettle_frame _ p (fun _ => rfl) (fun _ => rfl)
@[simp] theorem cuSettle_host (p : Part) : (cuSettle p).host = p.host := cuSettle_frame _ p (fun _ => rfl) (fun _ => rfl)
@[simp] theorem cuSettle_completions (p : Part) : (cuSettle p).port.completions = p.port.completions :=
  cuSettle_frame (fun q => q.port.completions) p (fun _ => rfl) (fun _ => rfl)

/-- While a request is in hand nothing but the hand-over follows a piece of work. -/
theorem cuSettle_working {p : Part} (h : p.cat.work ≠ .idle) : cuSettle p = handOver p := by simp [cuSettle, h]

theorem stopRun_unit (s : Store) (u : Nat) : s.stopRun.unit u = { s.unit u with passed := false } := by
  have hmap : s.stopRun.unit u = (s.units.map fun x => { x with passed := false }).getD u { EraseUnit.blank with passed := false } := rfl
  rw [hmap, List.getD_eq_getElem?_getD, List.getElem?_map, Option.getD_map, Store.unit, List.getD_eq_getElem?_getD]

/-- What the run-flag test leaves of a store: the queues, and of each unit all but its passed-over mark. -/
def Store.sameButRun (s t : Store) : Prop := (∀ b, t.queue b = s.queue b) ∧ ∀ u, ∃ x, t.unit u = { s.unit u with passed := x }

theorem Store.sameButRun_refl (s : Store) : s.sameButRun s := ⟨fun _ => rfl, fun u => ⟨(s.unit u).passed, rfl⟩⟩

theorem Store.sameButRun_queue {s t : Store} (h : s.sameButRun t) (b : Bank) : t.queue b = s.queue b := h.1 b

theorem Store.sameButRun_live {s t : Store} (h : s.sameButRun t) (u : Nat) : (t.unit u).live = (s.unit u).live := by
  obtain ⟨x, hx⟩ := h.2 u
  rw [hx]

theorem reclaimTest_sameButRun (p : Part) : p.store.sameButRun (reclaimTest p).store := by
  rcases reclaimTest_cases p with h | h | h <;> rw [h]
  · exact p.store.sameButRun_refl
  · refine ⟨fun b => by cases b <;> rfl, fun u => ⟨false, stopRun_unit p.store u⟩⟩
  · exact ⟨fun b => by cases b <;> rfl, fun u => ⟨(p.store.unit u).passed, rfl⟩⟩

theorem freeTested_sameButRun (old p : Part) : p.store.sameButRun (freeTested old p).store := by
  unfold freeTested
  split
  · exact p.store.sameButRun_refl
  · exact reclaimTest_sameButRun p

theorem cuSettle_sameButRun (p : Part) : p.store.sameButRun (cuSettle p).store := by
  unfold cuSettle
  split
  · exact reclaimTest_sameButRun p
  · exact p.store.sameButRun_refl

@[simp] theorem freeTested_queue (old p : Part) (b : Bank) : (freeTested old p).store.queue b = p.store.queue b :=
  Store.sameButRun_queue (freeTested_sameButRun old p) b
@[simp] theorem freeTested_live (old p : Part) (u : Nat) : ((freeTested old p).store.unit u).live = (p.store.unit u).live :=
  Store.sameButRun_live (freeTested_sameButRun old p) u
@[simp] theorem cuSettle_queue (p : Part) (b : Bank) : (cuSettle p).store.queue b = p.store.queue b :=
  Store.sameButRun_queue (cuSettle_sameButRun p) b
@[simp] theorem cuSettle_live (p : Part) (u : Nat) : ((cuSettle p).store.unit u).live = (p.store.unit u).live :=
  Store.sameButRun_live (cuSettle_sameButRun p) u

/-- With the FREE count as it was no test is made. -/
theorem freeTested_same {old p : Part} (h : p.store.freeCount = old.store.freeCount) : freeTested old p = p := if_pos h

/-! ## The run, operation by operation -/

theorem cuRun_awaiting {p : Part} (n : Nat) (h : p.cat.await.isSome = true) : cuRun n p = p := by
  cases n with
  | zero => rfl
  | succ n => simp [cuRun, h]

theorem cuRun_op {p : Part} {op : CuOp} {rest : List CuOp} (n : Nat) (hA : p.cat.await = none) (hT : p.cat.todo = op :: rest) :
    cuRun (n + 1) p = cuRun n (freeTested p (workOp op (onlyDo rest p))) := by
  simp [cuRun, hA, hT]

/-- An operation that leaves the FREE count as it is makes no test of the run flag. -/
theorem cuRun_steady {p q : Part} {op : CuOp} {rest : List CuOp} (n : Nat) (hA : p.cat.await = none) (hT : p.cat.todo = op :: rest)
    (hq : workOp op (onlyDo rest p) = q) (hf : q.store.freeCount = p.store.freeCount) : cuRun (n + 1) p = cuRun n q := by
  rw [cuRun_op n hA hT, hq, freeTested_same hf]

theorem cuRun_done {p : Part} (n : Nat) (hA : p.cat.await = none) (hT : p.cat.todo = []) : cuRun (n + 1) p = endJob p := by
  simp [cuRun, hA, hT]

/-- A unit that waits already has nothing to run. -/
theorem cuWork_awaiting {p : Part} (h : p.cat.await.isSome = true) : cuWork p = cuSettle p := by
  rw [cuWork, cuRun_awaiting _ h]

/-- With no BAD record waiting there is none to write (R128). -/
theorem flushBad_none {p : Part} (h : p.cat.badWaiting = []) : flushBad p = p := by
  unfold flushBad
  split
  · rfl
  · have hc : { p.cat with badWaiting := [] } = p.cat := by rw [← h]
    simp [push, Part.withCat, h, hc]

theorem cuRun_flushBad {p : Part} {rest : List CuOp} (n : Nat) (hA : p.cat.await = none) (hT : p.cat.todo = .flushBad :: rest)
    (hB : p.cat.badWaiting = []) : cuRun (n + 1) p = cuRun n (onlyDo rest p) :=
  cuRun_steady n hA hT (flushBad_none hB) rfl

/-! ## The end of a request -/

/-- The request in hand has ended from p to q: its completion handed over, the Catalogue Unit between requests, and nothing else that
a request is about changed. -/
structure EndsWork (p q : Part) (r : Request) (code : Code) (result : List Byte) : Prop where
  completes : Completes p q r code (some result) none
  work      : q.cat.work = .idle
  req       : q.cat.req = none
  queue     : q.cat.queue = p.cat.queue
  entries   : q.cat.entries = p.cat.entries
  nextSeq   : q.cat.nextSeq = p.cat.nextSeq
  line      : q.line = p.line
  rules     : q.rules = p.rules
  engine    : q.engine = p.engine
  host      : q.host = p.host
  banks     : ∀ b, q.store.queue b = p.store.queue b
  live      : ∀ u, (q.store.unit u).live = (p.store.unit u).live

/-- With nothing to do but finish, the request ends. -/
theorem cuRun_finish {p : Part} {r : Request} {code : Code} {result : List Byte} (n : Nat) (hA : p.cat.await = none)
    (hT : p.cat.todo = [.finish code result]) (hR : p.cat.req = some r) :
    EndsWork p (cuSettle (cuRun (n + 2) p)) r code result := by
  have hfin : workOp (.finish code result) (onlyDo [] p) = complete (handOver (onlyDo [] p)) r code (some result) none := by
    simp [workOp, onlyDo, Part.withCat, hR]
  have hdone : (workOp (.finish code result) (onlyDo [] p)).cat.await = none ∧ (workOp (.finish code result) (onlyDo [] p)).cat.todo = [] := by
    rw [hfin]
    exact ⟨hA, rfl⟩
  rw [hfin] at hdone
  rw [cuRun_steady _ hA hT hfin rfl, cuRun_done n hdone.1 hdone.2]
  constructor <;> simp [Completes, endJob, complete, onlyDo]

/-- What is still to do is no part of how a request ends. -/
theorem EndsWork.of_onlyDo {p q : Part} {r : Request} {code : Code} {result : List Byte} {ops : List CuOp}
    (h : EndsWork (onlyDo ops p) q r code result) : EndsWork p q r code result :=
  ⟨h.completes, h.work, h.req, h.queue, h.entries, h.nextSeq, h.line, h.rules, h.engine, h.host, h.banks, h.live⟩

/-- DISCARD ends with its two numbers (R16). -/
theorem cuRun_discardEnd {p : Part} {r : Request} (n : Nat) (hA : p.cat.await = none) (hT : p.cat.todo = [.discardEnd])
    (hR : p.cat.req = some r) : EndsWork p (cuSettle (cuRun (n + 3) p)) r .ok (resultArea (discardItems p.cat)) := by
  rw [cuRun_steady (n + 2) hA hT rfl rfl]
  exact .of_onlyDo (cuRun_finish (p := onlyDo [.finish .ok (resultArea (discardItems p.cat))] p) n hA rfl hR)

theorem cuWork_discardEnd {p : Part} {r : Request} (hA : p.cat.await = none) (hT : p.cat.todo = [.discardEnd])
    (hR : p.cat.req = some r) : EndsWork p (cuWork p) r .ok (resultArea (discardItems p.cat)) := cuRun_discardEnd 8189 hA hT hR

theorem cuWork_finish {p : Part} {r : Request} {code : Code} {result : List Byte} (hA : p.cat.await = none)
    (hT : p.cat.todo = [.finish code result]) (hR : p.cat.req = some r) : EndsWork p (cuWork p) r code result :=
  cuRun_finish 8190 hA hT hR

/-- The head request of a state ends when its part's work does, from a part like the state's in what has reached the port. -/
theorem EndsWork.endsRequest {s : State} {p q : Part} {r : Request} {rest : List Request} {code : Code} {result : List Byte}
    (h : EndsWork p q r code result) (hc : p.port.completions = s.part.port.completions) (hq : p.cat.queue = rest) :
    EndsRequest s { s with part := q } r rest code result :=
  ⟨by rw [Completes, ← hc]; exact h.completes, h.work, h.req, h.queue.trans hq, rfl⟩

/-! ## The beginning of a request -/

@[simp] theorem askScan_device (p : Part) : (askScan p).device = p.device := by unfold askScan; split <;> rfl
@[simp] theorem askScan_att (p : Part) : (askScan p).att = p.att := by unfold askScan; split <;> rfl
@[simp] theorem askScan_line (p : Part) : (askScan p).line = p.line := by unfold askScan; split <;> rfl
@[simp] theorem askScan_pins (p : Part) : (askScan p).pins = p.pins := by unfold askScan; split <;> rfl
@[simp] theorem askScan_rules (p : Part) : (askScan p).rules = p.rules := by unfold askScan; split <;> rfl
@[simp] theorem askScan_engine (p : Part) : (askScan p).engine = p.engine := by unfold askScan; split <;> rfl
@[simp] theorem askScan_store (p : Part) : (askScan p).store = p.store := by unfold askScan; split <;> rfl
@[simp] theorem askScan_host (p : Part) : (askScan p).host = p.host := by unfold askScan; split <;> rfl
@[simp] theorem askScan_completions (p : Part) : (askScan p).port.completions = p.port.completions := by unfold askScan; split <;> rfl
@[simp] theorem askScan_enablement (p : Part) : (askScan p).port.enablement = p.port.enablement := by unfold askScan; split <;> rfl

section
variable (p : Part) (r : Request) (rest : List Request)

@[simp] theorem takeHead_cat : (takeHead p r rest).cat =
    { p.cat with queue := rest, work := .request, req := some r, todo := [], beginFirst := false, dropped := 0, ceased := 0 } := by
  simp [takeHead]
@[simp] theorem takeHead_device : (takeHead p r rest).device = p.device := by simp [takeHead]
@[simp] theorem takeHead_att : (takeHead p r rest).att = p.att := by simp [takeHead]
@[simp] theorem takeHead_line : (takeHead p r rest).line = p.line := by simp [takeHead]
@[simp] theorem takeHead_pins : (takeHead p r rest).pins = p.pins := by simp [takeHead]
@[simp] theorem takeHead_rules : (takeHead p r rest).rules = p.rules := by simp [takeHead]
@[simp] theorem takeHead_engine : (takeHead p r rest).engine = p.engine := by simp [takeHead]
@[simp] theorem takeHead_store : (takeHead p r rest).store = p.store := by simp [takeHead]
@[simp] theorem takeHead_host : (takeHead p r rest).host = p.host := by simp [takeHead]
@[simp] theorem takeHead_completions : (takeHead p r rest).port.completions = p.port.completions := by simp [takeHead]
@[simp] theorem takeHead_enablement : (takeHead p r rest).port.enablement = p.port.enablement := by simp [takeHead]

theorem openingTests_takeHead : openingTests (takeHead p r rest) r = openingTests p r := by
  simp [openingTests, frozen]

end

/-- A request between whose turn it is, nothing is awaited. -/
theorem RequestTurn.await_none {s : State} {r : Request} {rest : List Request} (h : RequestTurn s r rest) : s.part.cat.await = none := by
  obtain ⟨-, hturn, -⟩ := h
  refine Classical.byContradiction fun hne => ?_
  simp [cuTurn, hne] at hturn

/-- The head request whose turn it is, with the opening tests passed, goes on with its own part (R8, R9). -/
theorem beginHead_passed {s : State} {r : Request} {rest : List Request} {wanted : Request → Bool} (go : Request → Part → Part)
    (h : RequestTurn s r rest) (hw : wanted r = true) (ht : openingTests s.part r = none) :
    beginHead s.part wanted go = cuWork (go r (takeHead s.part r rest)) := by
  obtain ⟨hon, hturn, hq⟩ := h
  simp [beginHead, hq, hon, hturn, hw, openingTests_takeHead, ht, whenPassed]

/-- A command whose effect on the part is known has that part next. -/
theorem apply_of_eq {s : State} {f : Part → Part} {q : Part} (h : f s.part = q) : s.apply f = .next { s with part := q } := by
  rw [State.apply_eq, State.mapPart, h]

/-- A command that begins the head request, its opening tests passed, works on from what the request's own part makes of it. -/
theorem exec_begins {s : State} {r : Request} {rest : List Request} {wanted : Request → Bool} {go : Request → Part → Part} {q : Part}
    (h : RequestTurn s r rest) (hw : wanted r = true) (ht : openingTests s.part r = none) (hq : go r (takeHead s.part r rest) = q) :
    (s.apply fun p => beginHead p wanted go) = .next { s with part := cuWork q } :=
  apply_of_eq ((beginHead_passed go h hw ht).trans (congrArg cuWork hq))

theorem isKind_of_eq {k : Kind} {r : Request} (h : r.kind = k) : isKind k r = true := decide_eq_true h

/-- The opening tests pass when each of them does (R9). -/
theorem openingTests_none {p : Part} {r : Request}
    (hd : p.device = .ready ∨ (p.device = .unformatted ∧ (r.kind = .formatStore ∨ r.kind = .list))) (ho : r.originValid = true)
    (hp : r.kind.permits r = true) (hk : r.kind.catalogueNeedsKey = true → r.keyOn = true) (hf : frozen p r = false) :
    openingTests p r = none := by
  have hkey : ¬(r.kind.catalogueNeedsKey = true ∧ ¬r.keyOn = true) := fun h => h.2 (hk h.1)
  rw [Machine.openingTests, if_neg (not_not_intro hd), if_neg (not_not_intro ho), if_neg (not_not_intro hp), if_neg hkey,
    if_neg (by simp [hf])]

/-- A request whose kind is never frozen is not frozen (R11). -/
theorem frozen_of_none {p : Part} {r : Request} (h : frozenFormat r = none) : frozen p r = false := by simp [frozen, h]

/-- A request from a SUPERVISOR passes the opening tests, with the key on where it needs it and its format not frozen (R9). -/
theorem openingTests_supervisor {p : Part} {r : Request} (hd : p.device = .ready) (ho : r.origin = 1#8)
    (hk : r.kind.catalogueNeedsKey = true → r.keyOn = true) (hf : frozen p r = false) : openingTests p r = none := by
  have hs : r.supervisor = true := by simp [Request.supervisor, ho]
  refine openingTests_none (.inl hd) (by simp [Request.originValid, ho]) ?_ hk hf
  unfold Kind.permits
  split <;> simp [hs]

theorem Admitted.openingTests {s : State} {r : Request} (h : Admitted s r) : openingTests s.part r = none := by
  obtain ⟨hd, ho, hk, hf⟩ := h
  exact openingTests_supervisor hd ho (fun _ => hk) hf

/-! ## Asking for a record -/

theorem recordsOf_onlyDo (ops : List CuOp) (p : Part) (w : Writer) : recordsOf (onlyDo ops p) w = recordsOf p w := by
  cases w <;> rfl

/-- An operation asked for leaves every unit, and so the FREE count, as it is. -/
theorem ask_units (s : Store) (c : Client) (op : BankOp) : (s.ask c op).units = s.units := by
  unfold Store.ask Store.setQueue
  dsimp only
  split <;> rfl

theorem ask_freeCount (s : Store) (c : Client) (op : BankOp) : (s.ask c op).freeCount = s.freeCount := by
  rw [Store.freeCount, ask_units, Store.freeCount]

/-- A request has asked unit u for the slot of the first of its records, from p to q. -/
structure AsksForRecord (p q : Part) (u : Nat) (recs : List JournalRecord) (w : Writer) : Prop where
  store       : q.store = p.store.ask .catalogue
    (.programSlot u (p.store.unit u).slots (slotEncode p.cat.nextSeq (recs.headD .commitEnd)))
  await       : q.cat.await = some (.slot recs p.cat.nextSeq w)
  nextSeq     : q.cat.nextSeq = p.cat.nextSeq + 1
  queue       : q.cat.queue = p.cat.queue
  req         : q.cat.req = p.cat.req
  entries     : q.cat.entries = p.cat.entries
  rules       : q.rules = p.rules
  engine      : q.engine = p.engine
  host        : q.host = p.host
  att         : q.att = p.att
  completions : q.port.completions = p.port.completions

/-- The part once the head of a list of records is asked for in unit u, under the next sequence number. -/
def putInUnit (p : Part) (u : Nat) (recs : List JournalRecord) (w : Writer) : Part :=
  issue (.programSlot u (p.store.unit u).slots (slotEncode p.cat.nextSeq (recs.headD .commitEnd))) (.slot recs p.cat.nextSeq w)
    (p.withCat fun c => { c with nextSeq := c.nextSeq + 1, writeUnit := some u })

/-- A record is programmed where the ring gives room (R125, R127). -/
theorem putRecord_here {p : Part} {u k : Nat} (recs : List JournalRecord) (w : Writer) (hroom : RoomFor p u k) :
    putRecord recs w p = putInUnit p u recs w := by
  obtain ⟨hplace, -, hseq⟩ := hroom
  have hp : slotPlace p.store (p.withCat fun c => { c with nextSeq := c.nextSeq + 1 }).cat.writeUnit false = .here u := hplace
  simp only [putRecord, if_neg (Nat.not_lt.2 hseq), putSlot]
  rw [Part.withCat_store, hp]
  rfl

/-- A writer with records and room for them asks for the slot of the first (R10, R127). -/
theorem cuWork_append {p : Part} {u k : Nat} {w : Writer} {rest : List CuOp} {recs : List JournalRecord}
    (hA : p.cat.await = none) (hT : p.cat.todo = .append (some k) false w :: rest) (hW : p.cat.work ≠ .idle)
    (hrecs : recordsOf p w = recs) (hne : recs ≠ []) (hread : readFor (onlyDo rest p) w = onlyDo rest p) (hroom : RoomFor p u k) :
    AsksForRecord p (cuWork p) u recs w := by
  obtain ⟨x, xs, rfl⟩ := List.exists_cons_of_ne_nil hne
  have happ : workOp (.append (some k) false w) (onlyDo rest p) = push [.write (x :: xs) w] (onlyDo rest p) := by
    have hk : roomTest (onlyDo rest p) k = true := by
      obtain ⟨-, hfree, -⟩ := hroom
      exact decide_eq_true hfree
    simp [workOp, appendRecords, recordsOf_onlyDo, hrecs, hread, hk]
  have hA' : (push [.write (x :: xs) w] (onlyDo rest p)).cat.await = none := hA
  have hput : workOp (.write (x :: xs) w) (onlyDo rest (push [.write (x :: xs) w] (onlyDo rest p))) =
      putInUnit (onlyDo rest p) u (x :: xs) w := putRecord_here (k := k) _ _ hroom
  have hW' : (putInUnit (onlyDo rest p) u (x :: xs) w).cat.work ≠ .idle := hW
  rw [cuWork, show Config.workBound = 8190 + 1 + 1 from rfl, cuRun_steady _ hA hT happ rfl,
    cuRun_steady _ hA' rfl hput (ask_freeCount ..), cuRun_awaiting _ rfl, cuSettle_working hW']
  constructor <;> rfl

/-- What the head request asks for from its taken state is what BeginsRecord says. -/
theorem AsksForRecord.beginsRecord {s : State} {p q : Part} {r : Request} {rest : List Request} {u : Nat}
    {recs : List JournalRecord} {w : Writer} (h : AsksForRecord p q u recs w) (hp : ∃ ops, p = push ops (takeHead s.part r rest)) :
    BeginsRecord s { s with part := q } r rest u recs w := by
  obtain ⟨ops, rfl⟩ := hp
  refine ⟨rfl, ?_, ?_, ?_, ?_, ?_, ?_, ?_, ?_, ?_, ?_, ?_⟩
  · simpa [push] using h.queue
  · simpa [push] using h.req
  · simpa [push] using h.store
  · simpa [push] using h.await
  · simpa [push] using h.nextSeq
  · simpa [push] using h.entries
  · simpa using h.rules
  · simpa using h.engine
  · simpa using h.host
  · simpa using h.att
  · simpa using h.completions

end Sys2Proof.Machine
end

section
/-! How the catalogue requests begin (R12 to R22), and the report that is taken (R5). -/
namespace Sys2Proof.Machine

/-! ## Reports -/

/-- Settles O56: the report sets the flag of the entry with its uid where its generation is still current (R5). -/
theorem reportIsTaken : Obligations.ReportIsTaken := by
  intro s d ds hon hr
  have hflag : ∀ e : Entry,
      (if e.uid = d.uid then (if e.current.map Generation.number = some d.number then { e with damaged := true } else e) else e) =
        { e with damaged := e.damaged || (decide (e.uid = d.uid) && decide (e.current.map Generation.number = some d.number)) } := by
    intro e
    by_cases hu : e.uid = d.uid
    · by_cases hc : e.current.map Generation.number = some d.number <;> simp [← hu, hc]
    · simp [hu]
  have ht : takeReport s.part = applyReport d (s.part.withCat fun c => { c with reports := ds }) := by simp [takeReport, hr, hon]
  show Host.Outcome.next (s.mapPart takeReport) = _
  rw [State.mapPart, ht, applyReport, Part.modifyEntry, funext hflag]
  rfl

/-! ## Enrol -/

theorem firstCode_none {ts : List (Bool × Code)} (h : ∀ t ∈ ts, t.1 = true) : firstCode ts = none := by
  induction ts with
  | nil => rfl
  | cons t ts ih =>
    rw [firstCode, if_pos (h t (List.mem_cons_self ..))]
    exact ih fun x hx => h x (List.mem_cons_of_mem _ hx)

/-- Settles O41: with its tests passed an ENROL notes its station's byte order and waits for the host (R12, R13). -/
theorem enrolBegins : Obligations.EnrolBegins := by
  intro s r rest hturn hkind hadm hkey hst hset hload hlo hhi heven hal hroom
  have htests : enrolTests (takeHead s.part r rest) r = none := by
    refine firstCode_none ?_
    cases he : findKey s.part.cat.entries r.key with
    | none =>
      rw [he] at hroom
      simp [Request.keyOk, Request.aligned, Config.maxEntries, hkey, hst, hset, hload, hlo, hhi, heven, hal, he, hroom]
    | some e =>
      rw [he] at hroom
      simp [Request.keyOk, Request.aligned, Config.counterSpent, hkey, hst, hset, hload, hlo, hhi, heven, hal, he, hroom]
  refine ⟨_, exec_begins (go := beginEnrol) hturn (isKind_of_eq hkind) hadm.openingTests (by rw [beginEnrol, htests, whenPassed]), ?_⟩
  rw [cuWork_awaiting rfl, cuSettle_working (by simp [awaitHost])]
  simp [awaitHost]

/-! ## Commit and discard -/

theorem mem_insertByKey {e x : Entry} {xs : List Entry} : x ∈ insertByKey e xs ↔ x = e ∨ x ∈ xs := by
  induction xs with
  | nil => simp [insertByKey]
  | cons y ys ih =>
    unfold insertByKey
    split
    · simp
    · simp only [List.mem_cons, ih]
      exact or_left_comm

theorem mem_sortByKey {x : Entry} {xs : List Entry} : x ∈ sortByKey xs ↔ x ∈ xs := by
  induction xs with
  | nil => simp [sortByKey]
  | cons y ys ih => rw [sortByKey, List.foldr_cons, ← sortByKey, mem_insertByKey, ih, List.mem_cons]

theorem mem_stagedOf {p : Part} {f : Nat} {e : Entry} :
    e ∈ stagedOf p f ↔ e ∈ p.cat.entries ∧ e.key.format = f ∧ e.staged.isSome = true := by
  simp [stagedOf, mem_sortByKey]

/-- Where keys are distinct an entry is the one that its key finds (R1). -/
theorem findKey_of_mem {es : List Entry} {e : Entry} (hn : (es.map Entry.key).Nodup) (he : e ∈ es) : findKey es e.key = some e := by
  induction es with
  | nil => nomatch he
  | cons x xs ih =>
    rw [List.map_cons, List.nodup_cons] at hn
    rcases List.mem_cons.1 he with rfl | hmem
    · simp [findKey]
    · have hx : x.key ≠ e.key := fun h => hn.1 (h ▸ List.mem_map_of_mem hmem)
      rw [findKey, List.find?_cons_of_neg (by simpa using hx)]
      exact ih hn.2 hmem

@[simp] theorem stagedOf_takeHead (p : Part) (r : Request) (rest : List Request) (f : Nat) :
    stagedOf (takeHead p r rest) f = stagedOf p f := by simp [stagedOf]

/-- The turn of a request makes room in its taken state what it was before. -/
theorem roomFor_takeHead {p : Part} {u k : Nat} (r : Request) (rest : List Request) (ops : List CuOp) (h : RoomFor p u k) :
    RoomFor (push ops (takeHead p r rest)) u k := by
  obtain ⟨hplace, hfree, hseq⟩ := h
  exact ⟨by simpa [push] using hplace, by simpa [push, freeRoom] using hfree, by simpa [push] using hseq⟩

/-- A request that pushes an append of its records begins by asking for the first of them. -/
theorem beginsRecord_of_append {s : State} {r : Request} {rest : List Request} {u k : Nat} {w : Writer} {ops : List CuOp}
    {recs : List JournalRecord} (hturn : RequestTurn s r rest) (hroom : RoomFor s.part u k) (hne : recs ≠ [])
    (hrecs : recordsOf (push (.append (some k) false w :: ops) (takeHead s.part r rest)) w = recs)
    (hread : ∀ p, readFor p w = p) :
    BeginsRecord s { s with part := cuWork (push (.append (some k) false w :: ops) (takeHead s.part r rest)) } r rest u recs w :=
  (cuWork_append (rest := ops) (by simpa [push] using hturn.await_none) (by simp [push]) (by simp [push]) hrecs hne (hread _)
    (roomFor_takeHead r rest _ hroom)).beginsRecord ⟨_, rfl⟩

/-- A request that finishes at once ends; nothing else changes. -/
theorem endsRequest_of_finish {s : State} {r : Request} {rest : List Request} {code : Code} {items : List (Nat × List Byte)} {p : Part}
    (hA : p.cat.await = none) (hR : p.cat.req = some r) (hq : p.cat.queue = rest)
    (hc : p.port.completions = s.part.port.completions) :
    EndsWork p (cuWork (finishWith code items p)) r code (resultArea items) ∧
      EndsRequest s { s with part := cuWork (finishWith code items p) } r rest code (resultArea items) := by
  have h : EndsWork p (cuWork (finishWith code items p)) r code (resultArea items) := .of_onlyDo (cuWork_finish hA rfl hR)
  exact ⟨h, h.endsRequest hc hq⟩

section
variable {s : State} {r : Request} {rest : List Request}

/-- The format of a COMMIT or DISCARD in range: its one test passes. -/
theorem formatTest_none (h : r.format ≤ 31) : firstCode [(r.formatOk, .badKey)] = none := by simp [firstCode, Request.formatOk, h]

theorem beginCommit_nothing (p : Part) (hf : r.format ≤ 31) (h : stagedOf p r.format = []) :
    beginCommit r p = finishWith .ok [(64, leBytes 4 0)] p := by
  simp [beginCommit, formatTest_none hf, whenPassed, h]

theorem beginCommit_staged (p : Part) (hf : r.format ≤ 31) (h : stagedOf p r.format ≠ []) :
    beginCommit r p = push [.append (some ((stagedOf p r.format).length + 2)) false (.commit r.format)] p := by
  simp [beginCommit, formatTest_none hf, whenPassed, h]

/-- A DISCARD with nothing staged has only its end to do. -/
theorem beginDiscard_nothing (p : Part) (hf : r.format ≤ 31) (h : stagedOf p r.format = []) :
    beginDiscard r p = push [.discardEnd] p := by
  simp [beginDiscard, formatTest_none hf, whenPassed, h]

theorem beginDiscard_staged (p : Part) (hf : r.format ≤ 31) {e : Entry} {es : List Entry} (h : stagedOf p r.format = e :: es) :
    ∃ ops, beginDiscard r p = push (.append (some (es.length + 1)) false (.discard e.key) :: ops) p :=
  ⟨_, by
    simp only [beginDiscard, formatTest_none hf, whenPassed, h, List.map_cons, List.mapIdx_cons, List.cons_append,
      List.length_cons, List.length_map, if_true]
    rfl⟩

theorem recordsOf_discard {p : Part} {e : Entry} (h : findKey p.cat.entries e.key = some e) :
    recordsOf p (.discard e.key) = [if e.current = none then .entryGone e.key else .entry .change
      { key := e.key, ruleSet := e.ruleSet, counter := e.counter, staged := none, current := e.current, previous := e.previous }] := by
  rw [recordsOf, h]
  cases hc : e.current <;> simp [hc, discarded, Entry.image]

end

/-- Settles O43: each of the four beginnings is one call of what a request's own part does with what is staged (R15, R16). -/
theorem commitAndDiscardBegin : Obligations.CommitAndDiscardBegin := by
  intro s r rest u hturn hadm hf
  have htests := hadm.openingTests
  refine ⟨fun hk hs => ?_, fun hk hs hroom => ?_, fun hk hs => ?_, fun hk hkeys e es hs hroom => ?_⟩
  · obtain ⟨hw, he⟩ := endsRequest_of_finish (s := s) (p := takeHead s.part r rest) (r := r) (rest := rest) (code := .ok)
      (items := [(64, leBytes 4 0)]) (by simpa using hturn.await_none) (by simp) (by simp) (by simp)
    exact ⟨_, exec_begins (go := beginCommit) hturn (isKind_of_eq hk) htests (beginCommit_nothing _ hf (by simpa using hs)), he,
      hw.entries.trans (by simp), hw.nextSeq.trans (by simp)⟩
  · refine ⟨_, exec_begins (go := beginCommit) hturn (isKind_of_eq hk) htests (beginCommit_staged _ hf (by simpa using hs)), ?_⟩
    rw [stagedOf_takeHead]
    exact beginsRecord_of_append hturn hroom (by simp) (by simp [recordsOf, stagedOf, push, committed, Entry.image]) (fun _ => rfl)
  · have hw := cuWork_discardEnd (p := push [.discardEnd] (takeHead s.part r rest)) (r := r)
      (by simpa [push] using hturn.await_none) (by simp [push]) (by simp [push])
    have he := hw.endsRequest (s := s) (rest := rest) (by simp) (by simp [push])
    exact ⟨_, exec_begins (go := beginDiscard) hturn (isKind_of_eq hk) htests (beginDiscard_nothing _ hf (by simpa using hs)),
      by simpa [discardItems, push] using he, hw.entries.trans (by simp), hw.nextSeq.trans (by simp [push])⟩
  · obtain ⟨ops, hops⟩ := beginDiscard_staged (takeHead s.part r rest) hf ((stagedOf_takeHead ..).trans hs)
    have he : e ∈ s.part.cat.entries := (mem_stagedOf.1 (hs ▸ List.mem_cons_self ..)).1
    exact ⟨_, exec_begins (go := beginDiscard) hturn (isKind_of_eq hk) htests hops,
      beginsRecord_of_append hturn hroom (by simp) (recordsOf_discard (by simpa using findKey_of_mem hkeys he)) (fun _ => rfl)⟩

end Sys2Proof.Machine
end

section
/-! How REVERT, RETIRE, CLEAR_PEAKS, READ_BASELINE begin (R17, R18, R20, R22), and how an enrolled image is placed (R13, R113). -/
namespace Sys2Proof.Machine

/-! ## Revert and retire -/

/-- Settles O44: each asks for one record of the entry as it will be (R17, R18). -/
theorem revertAndRetireBegin : Obligations.RevertAndRetireBegin := by
  intro s r rest u e hturn hadm hkey he hroom
  refine ⟨fun hk hprev => ?_, fun hk => ?_⟩
  · have htests : revertTests (takeHead s.part r rest) r = none :=
      firstCode_none (by simp [Request.keyOk, hkey, he, Option.isSome_iff_ne_none, hprev])
    exact ⟨_, exec_begins (go := beginRevert) hturn (isKind_of_eq hk) hadm.openingTests (by rw [beginRevert, htests, whenPassed]),
      beginsRecord_of_append hturn hroom (by simp) (by simp [recordsOf, push, he, reverted, Entry.image]) (fun _ => rfl)⟩
  · have htests : firstCode [(r.keyOk, .badKey), ((findKey (takeHead s.part r rest).cat.entries r.key).isSome, .noBaseline)] = none :=
      firstCode_none (by simp [Request.keyOk, hkey, he])
    exact ⟨_, exec_begins (go := beginRetire) hturn (isKind_of_eq hk) hadm.openingTests (by rw [beginRetire, htests, whenPassed]),
      beginsRecord_of_append hturn hroom (by simp) rfl (fun _ => rfl)⟩

/-! ## Clear peaks -/

/-- Where keys are distinct one entry has the key of an entry (R1). -/
theorem countP_key_of_mem {es : List Entry} {e : Entry} (hn : (es.map Entry.key).Nodup) (he : e ∈ es) :
    es.countP (fun x => decide (x.key = e.key)) = 1 := by
  have hc : es.countP (fun x => decide (x.key = e.key)) = (es.map Entry.key).count e.key := by
    rw [List.count, List.countP_map]
    exact List.countP_congr fun x _ => by simp
  rw [hc, hn.count, if_pos (List.mem_map_of_mem he)]

/-- CLEAR_PEAKS is done in the act in which it begins: the peaks of the entries it is about are empty (R22). -/
theorem clearPeaks_ends {s : State} {r : Request} {rest : List Request} (hturn : RequestTurn s r rest) (hk : r.kind = .clearPeaks)
    (hd : s.part.device = .ready) (ho : r.origin = 1#8) (htests : clearPeaksTests s.part r = none) {mine : Entry → Bool}
    (hm : mine = fun e => r.peaksChoice == 1 || decide (e.key = r.peaksKey)) :
    ∃ t, exec .clearPeaks s = .next t ∧
      EndsRequest s t r rest .ok (resultArea [(64, leBytes 2 (s.part.cat.entries.countP mine))]) ∧
      t.part.cat.entries = s.part.cat.entries.map fun e => if mine e then e.emptyPeaks else e := by
  subst hm
  have ht : clearPeaksTests (takeHead s.part r rest) r = none := by simpa [clearPeaksTests] using htests
  obtain ⟨hw, he⟩ := endsRequest_of_finish (s := s) (r := r) (rest := rest) (code := .ok)
    (items := [(64, leBytes 2 (s.part.cat.entries.countP fun e => r.peaksChoice == 1 || decide (e.key = r.peaksKey)))])
    (p := (takeHead s.part r rest).withEntries fun es =>
      es.map fun e => if r.peaksChoice == 1 || decide (e.key = r.peaksKey) then e.emptyPeaks else e)
    (by simpa [Part.withEntries] using hturn.await_none) (by simp [Part.withEntries]) (by simp [Part.withEntries]) (by simp)
  refine ⟨_, exec_begins (go := beginClearPeaks) hturn (isKind_of_eq hk)
    (openingTests_supervisor hd ho (by simp [hk, Kind.catalogueNeedsKey]) (frozen_of_none (by simp [frozenFormat, hk])))
    (by rw [beginClearPeaks, ht, whenPassed, takeHead_entries]), he, hw.entries.trans (by simp)⟩

/-- Settles O51: by the choice the entries meant are the one with the key, or all (R22). -/
theorem clearPeaksEmptiesPeaks : Obligations.ClearPeaksEmptiesPeaks := by
  intro s r rest e hturn hk hd ho hkeys
  refine ⟨fun hchoice hrange hmem hkey => ?_, fun hchoice => ?_⟩
  · have hfind : findKey s.part.cat.entries r.peaksKey = some e := hkey ▸ findKey_of_mem hkeys hmem
    have hcount : s.part.cat.entries.countP (fun x => decide (x.key = r.peaksKey)) = 1 := hkey ▸ countP_key_of_mem hkeys hmem
    have htests : clearPeaksTests s.part r = none := by
      rw [clearPeaksTests, if_neg (by simp [hchoice])]
      exact firstCode_none (by simp [hrange, hchoice, hfind])
    obtain ⟨t, hexec, hends, hentries⟩ := clearPeaks_ends (mine := fun x => decide (x.key = r.peaksKey)) hturn hk hd ho htests
      (by simp [hchoice])
    exact ⟨t, hexec, hcount ▸ hends, hentries.trans (by simp [Entry.emptyPeaks, BandPeak.zero, TrackPeak.zero])⟩
  · obtain ⟨t, hexec, hends, hentries⟩ := clearPeaks_ends (mine := fun _ => true) hturn hk hd ho
      (by simp [clearPeaksTests, hchoice]) (by simp [hchoice])
    exact ⟨t, hexec, by simpa using hends, hentries.trans (by simp [Entry.emptyPeaks, BandPeak.zero, TrackPeak.zero])⟩

/-! ## Units and bank queues -/

@[simp] theorem modify_queue (s : Store) (u : Nat) (f : EraseUnit → EraseUnit) (b : Bank) : (s.modify u f).queue b = s.queue b := by
  cases b <;> rfl

theorem modify_unit_same {s : Store} {u : Nat} (f : EraseUnit → EraseUnit) (h : u < s.units.length) :
    (s.modify u f).unit u = f (s.unit u) := modifyNth_getD_same f u s.units .blank h

/-- An operation asked for joins the tail of its bank's queue (R106). -/
theorem ask_queue_same (s : Store) (c : Client) (op : BankOp) :
    (s.ask c op).queue (bankOf op.unit) = s.queue (bankOf op.unit) ++ [{ client := c, op := op }] := by
  unfold Store.ask
  dsimp only
  cases bankOf op.unit <;> rfl

theorem ask_unit (s : Store) (c : Client) (op : BankOp) (u : Nat) : (s.ask c op).unit u = s.unit u := by
  rw [Store.unit, ask_units, Store.unit]

/-! ## Read baseline -/

theorem chosenGeneration_of {p : Part} {r : Request} {e : Entry} {g : Generation} (he : findKey p.cat.entries r.key = some e)
    (hg : (r.generation = 1 ∧ e.staged = some g) ∨ (r.generation = 2 ∧ e.current = some g) ∨
      (r.generation = 3 ∧ e.previous = some g)) : chosenGeneration p r = some (e, g) := by
  rcases hg with ⟨hn, hg⟩ | ⟨hn, hg⟩ | ⟨hn, hg⟩ <;> simp [chosenGeneration, he, hn, hg]

/-- READ_BASELINE asks for the page of the generation its request chooses (R20). -/
theorem cuWork_readBack {p : Part} {r : Request} {e : Entry} {g : Generation} {page : Nat} {rest : List CuOp}
    (hA : p.cat.await = none) (hT : p.cat.todo = .readBack page :: rest) (hW : p.cat.work ≠ .idle) (hR : p.cat.req = some r)
    (hg : chosenGeneration p r = some (e, g)) :
    cuWork p = handOver (issue (.readPage g.unit (g.first + page)) (.readBack page) (onlyDo rest p)) := by
  have hread : readingOf (onlyDo rest p) = some (r, e, g) := by
    have hg' : chosenGeneration (onlyDo rest p) r = some (e, g) := hg
    have hR' : (onlyDo rest p).cat.req = some r := hR
    simp [readingOf, hR', hg']
  have hop : workOp (.readBack page) (onlyDo rest p) =
      issue (.readPage g.unit (g.first + page)) (.readBack page) (onlyDo rest p) := by simp only [workOp, hread]
  have hW' : (issue (.readPage g.unit (g.first + page)) (.readBack page) (onlyDo rest p)).cat.work ≠ .idle := hW
  rw [cuWork, show Config.workBound = 8191 + 1 from rfl, cuRun_steady _ hA hT hop (ask_freeCount ..), cuRun_awaiting _ rfl,
    cuSettle_working hW']

/-- The part with a unit pinned for READ_BASELINE, the first page still to be read. -/
def pinnedToRead (u : Nat) (p : Part) : Part :=
  push [.readBack 0] ((p.withStore fun s => s.pinUnit u).withCat fun c => { c with pin := some u })

/-- With its tests passed and room for the generation, READ_BASELINE pins the unit and goes on to read (R20). -/
theorem beginReadBaseline_reads {p : Part} {r : Request} {e : Entry} {g : Generation} (htests : readBaselineTests p r = none)
    (hg : chosenGeneration p r = some (e, g)) (hcap : g.length ≤ r.capacity) :
    beginReadBaseline r p = pinnedToRead g.unit p := by
  simp only [beginReadBaseline, htests, whenPassed, hg, if_neg (Nat.not_lt.2 hcap)]
  rfl

/-- Settles O49: with its tests passed a READ_BASELINE pins the unit and reads the first page (R20). -/
theorem readBaselineBegins : Obligations.ReadBaselineBegins := by
  intro s r rest e g hturn hk hd ho hkey hal he hg hcap hunit
  have hchosen : chosenGeneration (takeHead s.part r rest) r = some (e, g) := chosenGeneration_of (by simpa using he) hg
  have hgen : 1 ≤ r.generation ∧ r.generation ≤ 3 := by
    rcases hg with ⟨hn, -⟩ | ⟨hn, -⟩ | ⟨hn, -⟩ <;> omega
  have htests : readBaselineTests (takeHead s.part r rest) r = none :=
    firstCode_none (by simp [Request.keyOk, Request.aligned, hkey, hal, he, hchosen, hgen])
  have hopen : openingTests s.part r = none := by
    refine openingTests_none (.inl hd) ?_ ?_ (by simp [hk, Kind.catalogueNeedsKey]) (frozen_of_none (by simp [frozenFormat, hk]))
    · rcases ho with ho | ho <;> simp [Request.originValid, ho]
    · rcases ho with ho | ho <;> simp [hk, Kind.permits, Request.supervisor, Request.engineer, ho]
  refine ⟨_, exec_begins (go := beginReadBaseline) hturn (isKind_of_eq hk) hopen
    (beginReadBaseline_reads htests hchosen hcap), ?_⟩
  rw [cuWork_readBack (p := pinnedToRead g.unit (takeHead s.part r rest)) (page := 0) (rest := [])
    (by simpa [pinnedToRead, push] using hturn.await_none) (by simp [pinnedToRead, push]) (by simp [pinnedToRead, push])
    (by simp [pinnedToRead, push]) hchosen]
  refine ⟨rfl, ?_, rfl, ?_, ?_, ?_, ?_, ?_, rfl⟩
  · simp [pinnedToRead, issue, onlyDo, ask_unit, Store.pinUnit, modify_unit_same, hunit]
  · refine (ask_queue_same _ _ (.readPage g.unit (g.first + 0))).trans ?_
    simp [pinnedToRead, BankOp.unit, onlyDo, Store.pinUnit]
  · simp [pinnedToRead, issue, onlyDo, push]
  · simp [pinnedToRead]
  · simp [pinnedToRead, issue, onlyDo]
  · simp [pinnedToRead, issue, onlyDo]

/-! ## The image of an ENROL -/

/-- A placement leaves the bank queues as they are. -/
theorem placeRun_queue (s : Store) (n : Nat) (b : Bank) : (placeRun s n).2.queue b = s.queue b := by
  unfold placeRun
  split
  · rfl
  · split
    · rfl
    · unfold openFresh
      split <;> cases b <;> rfl

/-- The part with its image placed in a run, the first page asked for (R113). -/
def placedIn (run : PageRun) (placed : Store) (p : Part) : Part :=
  programImage run 0 false { p with store := placed, cat := { p.cat with run := some run, unplaced := false } }

/-- Placing an image that has room programs its first page (R113). -/
theorem cuRun_place {p : Part} {run : PageRun} {placed : Store} {rest : List CuOp} (n : Nat) (hA : p.cat.await = none)
    (hT : p.cat.todo = .place false false :: rest) (hp : placeRun p.store (pagesFor p.cat.buffer.length) = (some run, placed)) :
    cuRun (n + 1) p = freeTested p (placedIn run placed (onlyDo rest p)) := by
  have hop : workOp (.place false false) (onlyDo rest p) = placedIn run placed (onlyDo rest p) := by
    have hp' : placeRun (onlyDo rest p).store (pagesFor (onlyDo rest p).cat.buffer.length) = (some run, placed) := hp
    simp only [workOp, placeImage, Bool.false_and, if_neg Bool.false_ne_true, hp']
    rfl
  rw [cuRun_op n hA hT, hop, cuRun_awaiting]
  rw [freeTested_cat]
  rfl

/-- The part with an image in its buffer, about to place it. -/
def withImage (image : List Byte) (overruns : Nat) (p : Part) : Part :=
  push [.place false false] (p.withCat fun c => { c with buffer := image, overruns := overruns })

/-- The part once the host memory it waited for has arrived, with what the host wrote before. -/
def hostArrived (host : List Host.Cell) (p : Part) : Part := (p.withCat fun c => { c with await := none }).hostStores host

/-- An ENROL whose image passes the screening goes on to place it (R13). -/
theorem enrolRead_clean {p : Part} {r : Request} {image : List Byte}
    (h : screenImage p.cat.order image (claimWalk (ruleSetAt p.rules r.enrolRuleSet).rules image.length).1 = none) :
    enrolRead r image p = withImage image (claimWalk (ruleSetAt p.rules r.enrolRuleSet).rules image.length).2 p := by
  unfold enrolRead
  split
  rename_i pieces overruns hw
  rw [hw] at h ⊢
  simp only [h]
  rfl

/-- The read that an ENROL waits for has ended: the image is what host memory then holds (R13). -/
theorem hostReadDone_enrol {p : Part} {r : Request} {image : List Byte} (host : List Host.Cell) (hon : p.on = true) (hA : p.cat.await = some .hostRead)
    (hR : p.cat.req = some r) (hk : r.kind = .enrol) (hb : bufferOpen p r = true) (ha : r.address + r.length ≤ 2 ^ 64)
    (himage : image = (p.hostStores host).hostRead r.address r.length) :
    hostReadDone host p = cuWork (freeTested p (enrolRead r image (hostArrived host p))) := by
  have hl : hostLength r = r.length := by simp [hostLength, hk]
  have hb' : bufferOpen ((p.withCat fun c => { c with await := none }).hostStores host) r = true := hb
  have hkind : r.kind ≠ .ruleLoad := by simp [hk]
  simp only [hostReadDone, hA, hR, hon, if_true, cuResume, hb', hl, addressOk, ha, decide_true, Bool.and_self, if_neg hkind, himage]
  rfl

/-- The first page of an image, filled up with FFh (R14). -/
theorem imagePage_first (image : List Byte) :
    imagePage image 0 = image.take 512 ++ List.replicate (512 - image.length) 0xFF#8 := by
  simp [imagePage, fillTo, Config.pageBytes]

/-- Settles O42: the bytes read pass the screening, and the run placed takes the first page (R13, R113). -/
theorem enrolImageIsPlaced : Obligations.EnrolImageIsPlaced := by
  intro s host r run placed image hon hA hR hk hen hm haddr himage hscreen hplace
  have hb : bufferOpen s.part r = true := by simp [bufferOpen, hen, hm]
  obtain ⟨overruns, hread⟩ : ∃ n, enrolRead r image (hostArrived host s.part) = withImage image n (hostArrived host s.part) :=
    ⟨_, enrolRead_clean hscreen⟩
  have hrun : hostReadDone host s.part = cuSettle (freeTested (withImage image overruns (hostArrived host s.part))
      (placedIn run placed (onlyDo s.part.cat.todo (withImage image overruns (hostArrived host s.part))))) := by
    rw [hostReadDone_enrol host hon hA hR hk hb haddr himage, hread]
    refine (congrArg cuWork (freeTested_same ?_)).trans (congrArg cuSettle (cuRun_place 8191 rfl rfl hplace))
    rfl
  refine ⟨_, apply_of_eq hrun, by simp [placedIn, programImage, issue], by simp [placedIn, programImage, issue, onlyDo, push, withImage],
    ?_, by simp [placedIn, withImage, hostArrived], by simp [withImage, hostArrived, placedIn, programImage, issue, onlyDo],
    by simp [withImage, hostArrived, placedIn, programImage, issue, onlyDo], rfl⟩
  rw [cuSettle_queue, freeTested_queue]
  refine (ask_queue_same placed .catalogue (.programPage run.unit (run.first + 0) (imagePage image 0))).trans ?_
  have hq := placeRun_queue s.part.store (pagesFor image.length) (bankOf run.unit)
  rw [hplace] at hq
  simp [BankOp.unit, hq, imagePage_first]

end Sys2Proof.Machine
end

section
/-! LIST: the records it writes, and how it goes on and ends (R21). -/
namespace Sys2Proof.Machine

/-! ## Host memory -/

theorem writeN_append (d : Byte) (m : Mem) (a : Nat) (xs ys : List Byte) :
    Mem.writeN d m a (xs ++ ys) = Mem.writeN d (Mem.writeN d m a xs) (a + xs.length) ys := by
  induction xs generalizing m a with
  | nil => rfl
  | cons x xs ih => rw [List.cons_append, Mem.writeN, ih, Mem.writeN, List.length_cons, Nat.add_assoc, Nat.add_comm 1]

/-- Bytes written are read back. -/
theorem readN_writeN (d : Byte) {m : Mem} (h : Mem.wf d m = true) (a : Nat) (bs : List Byte) :
    Mem.readN d (Mem.writeN d m a bs) a bs.length = bs := by
  induction bs generalizing m a with
  | nil => rfl
  | cons b bs ih =>
    rw [List.length_cons, Mem.readN, Mem.writeN, Mem.read_writeN_other bs (.inl (Nat.lt_succ_self a)), Mem.read_write_same a b h,
      ih (Mem.wf_write a b h)]

theorem hostWrite_append (p : Part) (a : Nat) (xs ys : List Byte) :
    (p.hostWrite a xs).hostWrite (a + xs.length) ys = p.hostWrite a (xs ++ ys) := by
  simp only [Part.hostWrite, writeN_append]

/-- Bytes spell a number below 256 to the power of their count (R163). -/
theorem leNat_lt (bs : List Byte) : leNat bs < 256 ^ bs.length := by
  induction bs with
  | nil => exact Nat.one_pos
  | cons b bs ih =>
    have hb := b.isLt
    rw [leNat, List.length_cons, Nat.pow_succ]
    omega

theorem numAt_lt (bs : List Byte) (off n : Nat) : numAt bs off n < 256 ^ n :=
  Nat.lt_of_lt_of_le (leNat_lt _) (Nat.pow_le_pow_right (by decide) (List.length_take_le ..))

theorem Request.address_lt (r : Request) : r.address < 2 ^ 64 :=
  Nat.lt_of_lt_of_eq (numAt_lt r.params 8 8) (by decide)

/-! ## The records -/

theorem leBytes_length (n v : Nat) : (leBytes n v).length = n := by
  induction n generalizing v with
  | zero => rfl
  | succ n ih => rw [leBytes, List.length_cons, ih]

theorem listingRecord_length (e : Entry) : (listingRecord e).length = 64 := by
  have hg : ∀ g, (listingGeneration g).length = 12 := by
    intro g
    cases g <;> simp [listingGeneration, leBytes_length]
  simp [listingRecord, leBytes_length, hg]

theorem listing_length (es : List Entry) : (es.flatMap listingRecord).length = 64 * es.length := by
  induction es with
  | nil => rfl
  | cons e es ih =>
    rw [List.flatMap_cons, List.length_append, ih, listingRecord_length, List.length_cons]
    omega

theorem bufferOpen_hostWrite (p : Part) (a : Nat) (bs : List Byte) (r : Request) :
    bufferOpen (p.hostWrite a bs) r = bufferOpen p r := rfl

/-- With the buffer open and inside the address space every record is written (R21, R152). -/
theorem writeListing_all {p : Part} {r : Request} {i : Nat} {es : List Entry} (hb : bufferOpen p r = true)
    (ha : r.address + 64 * (i + es.length) ≤ 2 ^ 64) :
    writeListing p r i es = (p.hostWrite (r.address + 64 * i) (es.flatMap listingRecord), i + es.length, true) := by
  induction es generalizing p i with
  | nil => rfl
  | cons e es ih =>
    rw [List.length_cons] at ha
    have hok : addressOk (r.address + 64 * i) 64 = true := by
      simp only [addressOk, decide_eq_true_eq]
      omega
    have hnext := hostWrite_append p (r.address + 64 * i) (listingRecord e) (es.flatMap listingRecord)
    rw [listingRecord_length] at hnext
    have hplace : r.address + 64 * (i + 1) = r.address + 64 * i + 64 := by omega
    simp only [writeListing, hb, hok, Bool.and_self, if_true]
    have hb' : bufferOpen (p.hostWrite (r.address + 64 * i) (listingRecord e)) r = true := by
      rw [bufferOpen_hostWrite, hb]
    have ha' : r.address + 64 * (i + 1 + es.length) ≤ 2 ^ 64 := by omega
    rw [ih hb' ha', hplace, hnext, List.flatMap_cons, List.length_cons]
    congr 2
    omega

/-- The entries a LIST writes records of (R21). -/
def listed (p : Part) (r : Request) : List Entry := ((listFound p r).drop r.listSkip).take r.listCapacity

/-- The part with some of the records of a LIST written, from place i on. -/
def listedFrom (i : Nat) (chunk : List Entry) (r : Request) (p : Part) : Part :=
  p.hostWrite (r.address + 64 * i) (chunk.flatMap listingRecord)

theorem goOnListing_written {p : Part} {r : Request} {upTo : Option Nat} {i : Nat} {chunk : List Entry} (hb : bufferOpen p r = true)
    (hc : chunk = ((listed p r).drop i).take (upTo.getD (listed p r).length)) (ha : r.address + 64 * (i + chunk.length) ≤ 2 ^ 64) :
    goOnListing upTo i r p =
      if (listed p r).length ≤ i + chunk.length then
        finishWith .ok [(64, leBytes 4 (i + chunk.length)), (68, leBytes 4 (listFound p r).length)] (listedFrom i chunk r p)
      else (listedFrom i chunk r p).withCat fun c => { c with await := some (.listing (i + chunk.length)) } := by
  have hw := writeListing_all hb ha
  simp only [goOnListing, ← listed.eq_def, ← hc, hw]
  rfl

/-- What is read of host memory after the records are written: the records, and elsewhere what there was. -/
theorem listedFrom_host {p : Part} {r : Request} {i : Nat} {chunk : List Entry} (h : Mem.wf hostBlank p.host = true) :
    (listedFrom i chunk r p).hostRead (r.address + 64 * i) (64 * chunk.length) = chunk.flatMap listingRecord ∧
    ∀ a, a < r.address + 64 * i ∨ r.address + 64 * (i + chunk.length) ≤ a →
      Mem.read hostBlank (listedFrom i chunk r p).host a = Mem.read hostBlank p.host a := by
  refine ⟨?_, fun a ha => Mem.read_writeN_other _ ?_⟩
  · rw [← listing_length]
    exact readN_writeN _ h _ _
  · rw [listing_length]
    omega

/-! ## The beginning of a LIST -/

theorem listFound_ready {p : Part} (r : Request) (h : p.device = .ready) : listFound p r = listMatches p r := by simp [listFound, h]

theorem listed_ready {p : Part} {r : Request} {out : List Entry} (hd : p.device = .ready)
    (ho : out = ((listMatches p r).drop r.listSkip).take r.listCapacity) : listed p r = out := by
  rw [ho, listed, listFound_ready r hd]

theorem carryOnList_begins {p : Part} (upTo : Option Nat) (h : p.cat.await = none) :
    carryOnList upTo p = beginHead p (isKind .list) (beginList upTo) := by
  unfold carryOnList
  rw [h]
  rfl

theorem filterOk_of {v most : Nat} (h : v ≤ most ∨ v = 0xFF) : filterOk v most = true := by
  simpa [filterOk] using h

/-- The part of the claim about a LIST that its request begins: the hypotheses on the request, and its turn. -/
structure ListBegins (s : State) (r : Request) (rest : List Request) : Prop where
  turn    : RequestTurn s r rest
  kind    : r.kind = .list
  device  : s.part.device = .ready ∨ s.part.device = .unformatted
  origin  : r.originValid = true
  tests   : listTests r = none
  buffer  : bufferOpen s.part r = true

section
variable {s : State} {r : Request} {rest : List Request}

theorem ListBegins.listed_takeHead (r' : Request) : listed (takeHead s.part r rest) r' = listed s.part r' := by
  simp [listed, listFound, listMatches]

/-- A LIST begins with its first records. -/
theorem ListBegins.exec {q : Part} (h : ListBegins s r rest) (upTo : Option Nat)
    (hq : goOnListing upTo 0 r (takeHead s.part r rest) = q) :
    exec (.list upTo) s = .next { s with part := cuWork q } := by
  have hopen : openingTests s.part r = none :=
    openingTests_none (h.device.imp id fun hu => ⟨hu, .inr h.kind⟩) h.origin (by simp [h.kind, Kind.permits])
      (by simp [h.kind, Kind.catalogueNeedsKey]) (frozen_of_none (by simp [frozenFormat, h.kind]))
  refine apply_of_eq ((carryOnList_begins upTo h.turn.await_none).trans ?_)
  rw [beginHead_passed (beginList upTo) h.turn (isKind_of_eq h.kind) hopen, beginList, h.tests, whenPassed, hq]

/-- A LIST that nothing interrupts writes all its records and ends. -/
theorem ListBegins.writesAll (h : ListBegins s r rest) (ha : r.address + 64 * (listed s.part r).length ≤ 2 ^ 64) :
    ∃ t, Machine.exec (.list none) s = .next t ∧
      EndsRequest s t r rest .ok
        (resultArea [(64, leBytes 4 (listed s.part r).length), (68, leBytes 4 (listFound s.part r).length)]) ∧
      t.part.host = (listedFrom 0 (listed s.part r) r s.part).host ∧ t.part.cat.entries = s.part.cat.entries := by
  have hfound : listFound (takeHead s.part r rest) r = listFound s.part r := by simp [listFound, listMatches]
  have hgo := goOnListing_written (p := takeHead s.part r rest) (r := r) (upTo := none) (i := 0) (chunk := listed s.part r)
    (by simpa [bufferOpen] using h.buffer) (by simp [ListBegins.listed_takeHead]) (by simpa using ha)
  rw [ListBegins.listed_takeHead, hfound, Nat.zero_add, if_pos (Nat.le_refl _)] at hgo
  obtain ⟨hw, he⟩ := endsRequest_of_finish (s := s) (r := r) (rest := rest) (code := .ok)
    (items := [(64, leBytes 4 (listed s.part r).length), (68, leBytes 4 (listFound s.part r).length)])
    (p := listedFrom 0 (listed s.part r) r (takeHead s.part r rest))
    (by simpa [listedFrom] using h.turn.await_none) (by simp [listedFrom]) (by simp [listedFrom]) (by simp [listedFrom])
  exact ⟨_, h.exec none hgo, he, hw.host.trans (by simp [listedFrom, Part.hostWrite]), hw.entries.trans (by simp [listedFrom])⟩

/-- A LIST that is interrupted after k records waits with them written (log 24). -/
theorem ListBegins.writesSome (h : ListBegins s r rest) {k : Nat} (hk : k < (listed s.part r).length)
    (ha : r.address + 64 * k ≤ 2 ^ 64) :
    ∃ t, Machine.exec (.list (some k)) s = .next t ∧ t.part.cat.await = some (.listing k) ∧ t.part.cat.req = some r ∧
      t.part.cat.queue = rest ∧ t.part.host = (listedFrom 0 ((listed s.part r).take k) r s.part).host ∧
      t.part.cat.entries = s.part.cat.entries ∧ t.part.port.completions = s.part.port.completions ∧ t.pending = s.pending := by
  have hlen : ((listed s.part r).take k).length = k := List.length_take_of_le (Nat.le_of_lt hk)
  have hgo := goOnListing_written (p := takeHead s.part r rest) (r := r) (upTo := some k) (i := 0) (chunk := (listed s.part r).take k)
    (by simpa [bufferOpen] using h.buffer) (by simp [ListBegins.listed_takeHead]) (by simpa [hlen] using ha)
  rw [ListBegins.listed_takeHead, Nat.zero_add, hlen, if_neg (Nat.not_le.2 hk)] at hgo
  refine ⟨_, h.exec (some k) hgo, ?_⟩
  rw [cuWork_awaiting rfl]
  refine ⟨by simp, by simp [listedFrom], by simp [listedFrom], by simp [listedFrom, Part.hostWrite], by simp [listedFrom],
    by simp [listedFrom], rfl⟩

end

/-- A LIST in hand goes on where it stands, to its end. -/
theorem list_goesOn {s : State} {r : Request} {i : Nat} (hon : s.part.on = true) (hA : s.part.cat.await = some (.listing i))
    (hR : s.part.cat.req = some r) (hb : bufferOpen s.part r = true) (hi : i ≤ (listed s.part r).length)
    (ha : r.address + 64 * (listed s.part r).length ≤ 2 ^ 64) :
    ∃ t, exec (.list none) s = .next t ∧
      EndsRequest s t r s.part.cat.queue .ok
        (resultArea [(64, leBytes 4 (listed s.part r).length), (68, leBytes 4 (listFound s.part r).length)]) ∧
      t.part.host = (listedFrom i ((listed s.part r).drop i) r s.part).host ∧ t.part.cat.entries = s.part.cat.entries := by
  have hlen : i + ((listed s.part r).drop i).length = (listed s.part r).length := by
    rw [List.length_drop]
    omega
  obtain ⟨p, hp⟩ : ∃ p, p = s.part.withCat fun c => { c with await := none } := ⟨_, rfl⟩
  have hl : listed p r = listed s.part r := by rw [hp]; rfl
  have hf : listFound p r = listFound s.part r := by rw [hp]; rfl
  have hgo := goOnListing_written (p := p) (r := r) (upTo := none) (i := i) (chunk := (listed s.part r).drop i) (by rw [hp]; exact hb)
    (by rw [hl]; exact (List.take_of_length_le (by simp)).symm) (hlen ▸ ha)
  rw [hl, hf, hlen, if_pos (Nat.le_refl _)] at hgo
  have hrun : carryOnList none s.part = cuWork (finishWith .ok [(64, leBytes 4 (listed s.part r).length),
      (68, leBytes 4 (listFound s.part r).length)] (listedFrom i ((listed s.part r).drop i) r p)) := by
    simp only [carryOnList, hA, hR, hon, if_true, cuResume, ← hp, hgo]
    exact congrArg cuWork (freeTested_same (by rw [hp]; rfl))
  obtain ⟨hw, he⟩ := endsRequest_of_finish (s := s) (r := r) (rest := s.part.cat.queue) (code := .ok)
    (items := [(64, leBytes 4 (listed s.part r).length), (68, leBytes 4 (listFound s.part r).length)])
    (p := listedFrom i ((listed s.part r).drop i) r p) (by rw [hp]; rfl) (by rw [hp]; exact hR) (by rw [hp]; rfl) (by rw [hp]; rfl)
  exact ⟨_, apply_of_eq hrun, he, hw.host.trans (by rw [hp]; rfl), hw.entries.trans (by rw [hp]; rfl)⟩

/-- Settles O50: one lemma for a LIST that runs through, one for its first piece, one for its last (R21, log 24). -/
theorem listWritesTheMatches : Obligations.ListWritesTheMatches := by
  refine ⟨?_, ?_⟩
  · intro s r rest out hturn hk ho hst hbl hfo hskip hcap hal hen hm hwf
    have htests : listTests r = none := firstCode_none
      (by simp [filterOk_of hst, filterOk_of hbl, filterOk_of hfo, hskip, hcap, Request.aligned, hal])
    have hb : bufferOpen s.part r = true := by simp [bufferOpen, hen, hm]
    have begins : s.part.device = .ready ∨ s.part.device = .unformatted → ListBegins s r rest := fun hd =>
      ⟨hturn, hk, hd, ho, htests, hb⟩
    refine ⟨fun hd hout ha => ?_, fun hd hout ha k hlt => ?_, fun hd => ?_⟩
    · have hl := listed_ready hd hout
      subst hl
      obtain ⟨t, hexec, hends, hhost, hentries⟩ := (begins (.inl hd)).writesAll ha
      obtain ⟨hread, hother⟩ := listedFrom_host (i := 0) (chunk := listed s.part r) (r := r) hwf
      rw [listFound_ready r hd] at hends
      refine ⟨t, hexec, hends, ?_, fun a h => ?_, hentries⟩
      · simpa [Part.hostRead, hhost] using hread
      · simpa [hhost] using hother a (by simpa using h)
    · have hl := listed_ready hd hout
      subst hl
      obtain ⟨t, hexec, hA, hR, hq, hhost, hentries, hc, hp⟩ := (begins (.inl hd)).writesSome hlt (by omega)
      have hlen : ((listed s.part r).take k).length = k := List.length_take_of_le (Nat.le_of_lt hlt)
      obtain ⟨hread, hother⟩ := listedFrom_host (i := 0) (chunk := (listed s.part r).take k) (r := r) hwf
      rw [hlen] at hread hother
      refine ⟨t, hexec, hA, hR, hq, ?_, fun a h => ?_, hentries, hc, hp⟩
      · simpa [Part.hostRead, hhost] using hread
      · simpa [hhost] using hother a (by simpa using h)
    · have hf : listFound s.part r = [] := by simp [listFound, hd]
      have hl : listed s.part r = [] := by simp [listed, hf]
      obtain ⟨t, hexec, hends, hhost, hentries⟩ := (begins (.inr hd)).writesAll (by rw [hl]; exact Nat.le_of_lt r.address_lt)
      rw [hf, hl] at hends
      rw [hl] at hhost
      exact ⟨t, hexec, hends, hhost, hentries⟩
  · intro s r out i hon hA hR hd htodo hen hm hwf hout hi ha
    have hl := listed_ready hd hout
    subst hl
    obtain ⟨t, hexec, hends, hhost, hentries⟩ := list_goesOn hon hA hR (by simp [bufferOpen, hen, hm]) hi ha
    have hlen : i + ((listed s.part r).drop i).length = (listed s.part r).length := by
      rw [List.length_drop]
      omega
    obtain ⟨hread, hother⟩ := listedFrom_host (i := i) (chunk := (listed s.part r).drop i) (r := r) hwf
    rw [hlen] at hother
    rw [List.length_drop] at hread
    rw [listFound_ready r hd] at hends
    refine ⟨t, hexec, hends, ?_, fun a h => ?_, hentries⟩
    · simpa [Part.hostRead, hhost] using hread
    · simpa [hhost] using hother a h

end Sys2Proof.Machine
end

section
/-! What stands when a request's records are complete: the change of R10, then the end of the request. -/
namespace Sys2Proof.Machine

/-! ## Units after a change of one -/

theorem modifyNth_of_length_le {α : Type} (f : α → α) {n : Nat} {xs : List α} (h : xs.length ≤ n) : modifyNth f n xs = xs := by
  induction xs generalizing n with
  | nil => cases n <;> rfl
  | cons x xs ih =>
    cases n with
    | zero => simp at h
    | succ n => rw [modifyNth, ih (by simpa using h)]

/-- What a change of a unit leaves of every unit, it leaves of all. -/
theorem modify_unit_field {α : Type} (g : EraseUnit → α) {f : EraseUnit → EraseUnit} (hf : ∀ x, g (f x) = g x) (s : Store) (u v : Nat) :
    g ((s.modify u f).unit v) = g (s.unit v) := by
  by_cases hv : v = u
  · subst hv
    by_cases hl : v < s.units.length
    · rw [modify_unit_same f hl, hf]
    · rw [Store.modify, modifyNth_of_length_le f (Nat.not_lt.1 hl)]
  · rw [Store.unit, Store.unit, Store.modify, modifyNth_getD_other f u v _ _ hv]

theorem countP_modifyNth {α : Type} (c : α → Bool) {f : α → α} (hf : ∀ x, c (f x) = c x) (n : Nat) (xs : List α) :
    (modifyNth f n xs).countP c = xs.countP c := by
  induction xs generalizing n with
  | nil => cases n <;> rfl
  | cons x xs ih => cases n <;> simp [modifyNth, List.countP_cons, hf, ih]

theorem slotProgrammed_freeCount (s : Store) (u m : Nat) (data : List Byte) : (s.slotProgrammed u m data).freeCount = s.freeCount :=
  countP_modifyNth (fun x : EraseUnit => decide (x.cls = some .free))
    (f := fun x => { x with slots := m + 1, pages := m / 4 + 1, mode := .record }) (fun _ => rfl) u s.units

@[simp] theorem setQueue_queue_same (s : Store) (b : Bank) (q : List BankJob) : (s.setQueue b q).queue b = q := by cases b <;> rfl

@[simp] theorem slotProgrammed_queue (s : Store) (u m : Nat) (data : List Byte) (b : Bank) :
    (s.slotProgrammed u m data).queue b = s.queue b := by cases b <;> rfl

@[simp] theorem dropLive_queue (s : Store) (u n : Nat) (b : Bank) : (s.dropLive u n).queue b = s.queue b := by cases b <;> rfl

theorem foldl_dropLive_queue (gs : List Generation) (s : Store) (b : Bank) :
    (gs.foldl (fun s g => s.dropLive g.unit g.pages) s).queue b = s.queue b := by
  induction gs generalizing s with
  | nil => rfl
  | cons g gs ih => rw [List.foldl_cons, ih, dropLive_queue]

/-! ## The slot of the last record -/

/-- The part once the slot of a writer's last record is programmed, the change still to be made (R10, R108). -/
def slotRecorded (b : Bank) (u m : Nat) (data : List Byte) (w : Writer) (p : Part) : Part :=
  ((finishHead p b).withStore fun s => s.slotProgrammed u m data).withCat fun c =>
    { c with
      await := none, fresh := if u ∈ c.fresh then c.fresh else c.fresh ++ [u]
      appended := c.appended || decide (w ≠ .snapshotPart) }

/-- The slot of the last record of a writer is being programmed, and the request in hand has nothing after it to do but what todo says. -/
structure LastSlot (s : State) (b : Bank) (u m : Nat) (data : List Byte) (q : List BankJob) (r : Request) (w : Writer)
    (todo : List CuOp) : Prop where
  on    : s.part.on = true
  bank  : s.part.store.queue b = { client := .catalogue, op := .programSlot u m data } :: q
  await : ∃ x num, s.part.cat.await = some (.slot [x] num w)
  req   : s.part.cat.req = some r
  todo  : s.part.cat.todo = todo
  bad   : s.part.cat.badWaiting = []

section
variable {s : State} {b : Bank} {u m : Nat} {data : List Byte} {q : List BankJob} {r : Request} {w : Writer} {todo : List CuOp}

/-- With the last slot done the writer's change follows (R10). -/
theorem LastSlot.exec (h : LastSlot s b u m data q r w todo) : exec (.slotProgramDone b .done) s =
    .next { s with part := cuSettle (cuRun 8191 (freeTested (push [.write [] w] (slotRecorded b u m data w s.part))
      (written w (slotRecorded b u m data w s.part)))) } := by
  obtain ⟨x, num, hA⟩ := h.await
  refine apply_of_eq ?_
  have hA' : (finishHead s.part b).cat.await = some (.slot [x] num w) := hA
  have hslot : slotOutcome u m data .done [x] num w ((finishHead s.part b).withCat fun c => { c with await := none }) =
      push [.write [] w] (slotRecorded b u m data w s.part) := rfl
  rw [endSlotProgram, h.bank, List.head?_cons]
  simp only [h.on, if_true, cuSlotDone, hA', cuResume, hslot]
  rw [freeTested_same (slotProgrammed_freeCount ..), cuWork, show Config.workBound = 8191 + 1 from rfl, cuRun_op _ rfl rfl]
  rfl

@[simp] theorem slotRecorded_line (p : Part) : (slotRecorded b u m data w p).line = p.line := rfl
@[simp] theorem slotRecorded_rules (p : Part) : (slotRecorded b u m data w p).rules = p.rules := rfl
@[simp] theorem slotRecorded_engine (p : Part) : (slotRecorded b u m data w p).engine = p.engine := rfl
@[simp] theorem slotRecorded_entries (p : Part) : (slotRecorded b u m data w p).cat.entries = p.cat.entries := rfl

theorem LastSlot.recorded_queue (h : LastSlot s b u m data q r w todo) : (slotRecorded b u m data w s.part).store.queue b = q := by
  simp [slotRecorded, finishHead, h.bank]

theorem slotRecorded_live (p : Part) (v : Nat) :
    ((slotRecorded b u m data w p).store.unit v).live = (p.store.unit v).live :=
  modify_unit_field EraseUnit.live (f := fun x => { x with slots := m + 1, pages := m / 4 + 1, mode := .record }) (fun _ => rfl) _ u v |>.trans
    (by cases b <;> rfl)

theorem slotRecorded_unitCount (p : Part) : (slotRecorded b u m data w p).store.units.length = p.store.units.length := by
  cases b <;> exact modifyNth_length ..

/-- A part whose Catalogue Unit is as the recorded slot has left it, but for the entries and the next uid. -/
def sameWork (p q : Part) : Prop :=
  ∃ es n, q.cat = { p.cat with entries := es, nextUid := n } ∧ q.port.completions = p.port.completions

theorem sameWork.recompute {p q : Part} (h : sameWork p q) : sameWork p (recompute q) := by
  obtain ⟨es, n, hcat, hc⟩ := h
  exact ⟨es, n, by rw [recompute_cat, hcat], by rw [recompute_completions, hc]⟩

/-- Operations put before the others, and a test of the run flag, are no part of how a request ends. -/
theorem EndsWork.of_freeTested {old p q : Part} {code : Code} {result : List Byte} {ops : List CuOp}
    (h : EndsWork (freeTested old (push ops p)) q r code result) : EndsWork p q r code result where
  completes := by simpa [Completes] using h.completes
  work := h.work
  req := h.req
  queue := by simpa [push] using h.queue
  entries := by simpa using h.entries
  nextSeq := by simpa [push] using h.nextSeq
  line := by simpa using h.line
  rules := by simpa using h.rules
  engine := by simpa using h.engine
  host := by simpa using h.host
  banks := by simpa using h.banks
  live := by simpa using h.live

/-- A writer whose change ends the request OK: from the part p with the change made to the part of the next state. -/
theorem LastSlot.endsOk {p : Part} {items : List (Nat × List Byte)} (h : LastSlot s b u m data q r w [])
    (hw : written w (slotRecorded b u m data w s.part) = thenOk items p) (hp : sameWork (slotRecorded b u m data w s.part) p) :
    ∃ t, Machine.exec (.slotProgramDone b .done) s = .next t ∧ EndsRequest s t r s.part.cat.queue .ok (resultArea items) ∧
      EndsWork p t.part r .ok (resultArea items) := by
  obtain ⟨es, n, hcat, hcomp⟩ := hp
  have hA : p.cat.await = none := by rw [hcat]; rfl
  have hB : p.cat.badWaiting = [] := by rw [hcat]; exact h.bad
  have hR : p.cat.req = some r := by rw [hcat]; exact h.req
  have hT : p.cat.todo = [] := by rw [hcat]; exact h.todo
  have hends : ∀ old, EndsWork p (cuSettle (cuRun 8191 (freeTested old (thenOk items p)))) r .ok (resultArea items) := by
    intro old
    refine .of_freeTested (old := old) (ops := [.flushBad, .finish .ok (resultArea items)]) ?_
    rw [show 8191 = 8190 + 1 from rfl, cuRun_flushBad (rest := [.finish .ok (resultArea items)]) 8190
      (by simpa [thenOk, push] using hA) (by simp [thenOk, push, hT]) (by simpa [thenOk, push] using hB)]
    exact .of_onlyDo (cuRun_finish 8188 (by simpa [thenOk, push, onlyDo] using hA) rfl (by simpa [thenOk, push, onlyDo] using hR))
  refine ⟨_, h.exec, ?_, ?_⟩
  · rw [hw]
    exact (hends _).endsRequest hcomp (by rw [hcat]; rfl)
  · rw [hw]
    exact hends _

/-- DISCARD's last record: with its change made the request ends with its two numbers (R16). -/
theorem LastSlot.endsDiscard {p : Part} (h : LastSlot s b u m data q r w [.discardEnd])
    (hw : written w (slotRecorded b u m data w s.part) = push [.flushBad] p) (hA : p.cat.await = none) (hB : p.cat.badWaiting = [])
    (hR : p.cat.req = some r) (hT : p.cat.todo = [.discardEnd]) (hq : p.cat.queue = s.part.cat.queue)
    (hc : p.port.completions = s.part.port.completions) :
    ∃ t, Machine.exec (.slotProgramDone b .done) s = .next t ∧
      EndsRequest s t r s.part.cat.queue .ok (resultArea (discardItems p.cat)) ∧
      EndsWork p t.part r .ok (resultArea (discardItems p.cat)) := by
  have hends : ∀ old, EndsWork p (cuSettle (cuRun 8191 (freeTested old (push [.flushBad] p)))) r .ok (resultArea (discardItems p.cat)) := by
    intro old
    refine .of_freeTested (old := old) (ops := [.flushBad]) ?_
    rw [show 8191 = 8190 + 1 from rfl, cuRun_flushBad (rest := [.discardEnd]) 8190 (by simpa [push] using hA) (by simp [push, hT])
      (by simpa [push] using hB)]
    have hd : discardItems (onlyDo [.discardEnd] (freeTested old (push [.flushBad] p))).cat = discardItems p.cat := by
      simp [discardItems, onlyDo, push]
    rw [← hd]
    exact .of_onlyDo (cuRun_discardEnd 8187 (by simpa [push, onlyDo] using hA) rfl (by simpa [push, onlyDo] using hR))
  refine ⟨_, h.exec, ?_, ?_⟩
  · rw [hw]
    exact (hends _).endsRequest hc hq
  · rw [hw]
    exact hends _

end

end Sys2Proof.Machine
end

section
/-! O46: the change that follows the record of RETIRE, ENROL, DISCARD and REVERT. -/
namespace Sys2Proof.Machine

/-! ## The changes -/

section
variable {p : Part} {k : Key} {e : Entry}

/-- The part once an entry is retired (R18, R19, R73). -/
def retiredFrom (e : Entry) (p : Part) : Part :=
  recompute
    { p with
      store := e.generations.foldl (fun s g => s.dropLive g.unit g.pages) p.store
      cat := { p.cat with entries := p.cat.entries.filter fun x => decide (x.uid ≠ e.uid) }
      engine := { p.engine with laneA := p.engine.laneA.noteRemoval e.uid, laneB := p.engine.laneB.noteRemoval e.uid } }

theorem applyRetire_found (h : findKey p.cat.entries k = some e) :
    applyRetire k p = thenOk [(64, leBytes 1 e.generations.length)] (retiredFrom e p) := by
  rw [applyRetire, h]
  rfl

/-- A lane that has set up against the entry removed has its removal mark (R73). -/
theorem noteRemoval_removed {l : LaneRegs} {uid : Nat} (h : ∃ x, l.setup = some x ∧ x.entry = uid) : (l.noteRemoval uid).removed = true := by
  obtain ⟨x, hx, hu⟩ := h
  simp [LaneRegs.noteRemoval, hx, hu]

/-- The part once an entry has a new generation staged (R14, R114). -/
def enrolledIn (r : Request) (run : PageRun) (e : Entry) (p : Part) : Part :=
  (p.modifyEntry e.uid (Entry.enrolled r.enrolRuleSet p.cat.buffer run)).withStore fun s =>
    (s.addLive run.unit run.pages).dropGen e.staged

theorem applyEnrol_found {r : Request} {run : PageRun} (hr : p.cat.req = some r) (hrun : p.cat.run = some run)
    (he : findKey p.cat.entries r.key = some e) :
    applyEnrol p = thenOk
      [(64, leBytes 4 e.counter), (68, leBytes 4 (crc32 p.cat.buffer)), (72, leBytes 1 run.pages), (74, leBytes 2 run.unit),
       (76, leBytes 4 (numberOf e.staged)), (80, leBytes 2 p.cat.overruns)] (enrolledIn r run e p) := by
  simp only [applyEnrol, hr, hrun, enrolledEntry, he]
  rfl

/-- The part once a key without an entry has got one (R14). -/
def enrolledNew (r : Request) (run : PageRun) (p : Part) : Part :=
  { p with
    store := p.store.addLive run.unit run.pages
    cat := { p.cat with
      entries := p.cat.entries ++ [(newEntry p r.key r.enrolRuleSet).enrolled r.enrolRuleSet p.cat.buffer run]
      nextUid := p.cat.nextUid + 1 } }

theorem applyEnrol_new {r : Request} {run : PageRun} (hr : p.cat.req = some r) (hrun : p.cat.run = some run)
    (he : findKey p.cat.entries r.key = none) :
    applyEnrol p = thenOk
      [(64, leBytes 4 1), (68, leBytes 4 (crc32 p.cat.buffer)), (72, leBytes 1 run.pages), (74, leBytes 2 run.unit),
       (76, leBytes 4 0), (80, leBytes 2 p.cat.overruns)] (enrolledNew r run p) := by
  simp only [applyEnrol, hr, hrun, enrolledEntry, he]
  rfl

/-- The part once a staged generation is dropped (R16). -/
def discardedFrom (e : Entry) (p : Part) : Part :=
  { p with
    store := p.store.dropGen e.staged
    cat := { p.cat with
      entries := (p.cat.entries.map fun x => if x.uid = e.uid then discarded x else x).filter Entry.exists_
      dropped := p.cat.dropped + 1
      ceased := if e.current.isSome then p.cat.ceased else p.cat.ceased + 1 } }

theorem applyDiscard_found (h : findKey p.cat.entries k = some e) : applyDiscard k p = push [.flushBad] (discardedFrom e p) := by
  rw [applyDiscard, h]
  rfl

/-- The part once the previous generation is brought back (R17, R19). -/
def revertedIn (e : Entry) (p : Part) : Part :=
  recompute (uncheck ((p.withStore fun s => s.dropGen e.current).modifyEntry e.uid fun x => (reverted x).emptyPeaks)
    fun x => decide (x.uid = e.uid))

theorem applyRevert_found (h : findKey p.cat.entries k = some e) :
    applyRevert k p = thenOk [(64, leBytes 4 (numberOf e.previous)), (68, leBytes 4 (numberOf e.current))] (revertedIn e p) := by
  rw [applyRevert, h]
  rfl

/-- REVERT's change of an entry and the return of its verdict to UNCHECKED are one change of the entries (R17, R19). -/
theorem revertedIn_entries (e : Entry) (p : Part) : (revertedIn e p).cat.entries = p.cat.entries.map fun x =>
    if x.uid = e.uid then stampVerdict p.line .unchecked (reverted x).emptyPeaks else x := by
  simp only [revertedIn, recompute_cat, uncheck, Part.withEntries_entries, Part.modifyEntry, List.map_map]
  refine List.map_congr_left fun x _ => ?_
  by_cases hu : x.uid = e.uid <;> simp [hu, reverted, Entry.emptyPeaks]

end

/-! ## The ends of the requests -/

section
variable {s : State} {b : Bank} {u m : Nat} {data : List Byte} {q : List BankJob} {r : Request} {e : Entry}

theorem retire_takesEffect (h : LastSlot s b u m data q r (.retire e.key) []) (he : findKey s.part.cat.entries e.key = some e) :
    ∃ t, exec (.slotProgramDone b .done) s = .next t ∧
      EndsRequest s t r s.part.cat.queue .ok (resultArea [(64, leBytes 1 e.generations.length)]) ∧
      t.part.cat.entries = s.part.cat.entries.filter (fun x => decide (x.uid ≠ e.uid)) ∧
      (∀ l, (∃ x, (s.part.engine.lane l).setup = some x ∧ x.entry = e.uid) → (t.part.engine.lane l).removed = true) ∧
      t.part.store.queue b = q := by
  obtain ⟨t, hexec, hends, hwork⟩ := h.endsOk (applyRetire_found he) (.recompute ⟨_, s.part.cat.nextUid, rfl, rfl⟩)
  refine ⟨t, hexec, hends, hwork.entries.trans (by simp [retiredFrom]), fun l hl => ?_, (hwork.banks b).trans ?_⟩
  · rw [hwork.engine]
    cases l
    · simpa [retiredFrom, Engine.lane] using noteRemoval_removed hl
    · simpa [retiredFrom, Engine.lane] using noteRemoval_removed hl
  · have hq := foldl_dropLive_queue e.generations (slotRecorded b u m data (.retire e.key) s.part).store b
    simpa [retiredFrom, Store.queue, h.recorded_queue] using hq.trans h.recorded_queue

theorem enrol_takesEffect {run : PageRun} (h : LastSlot s b u m data q r .enrol []) (hrun : s.part.cat.run = some run)
    (he : findKey s.part.cat.entries r.key = some e) :
    ∃ t, exec (.slotProgramDone b .done) s = .next t ∧
      EndsRequest s t r s.part.cat.queue .ok (resultArea
        [(64, leBytes 4 e.counter), (68, leBytes 4 (crc32 s.part.cat.buffer)), (72, leBytes 1 run.pages), (74, leBytes 2 run.unit),
         (76, leBytes 4 (numberOf e.staged)), (80, leBytes 2 s.part.cat.overruns)]) ∧
      t.part.cat.entries = s.part.cat.entries.map (fun y =>
        if y.uid = e.uid then y.enrolled r.enrolRuleSet s.part.cat.buffer run else y) ∧
      (e.staged = none → run.unit < s.part.store.units.length →
        (t.part.store.unit run.unit).live = (s.part.store.unit run.unit).live + run.pages) := by
  obtain ⟨t, hexec, hends, hwork⟩ := h.endsOk (applyEnrol_found h.req hrun he) ⟨_, s.part.cat.nextUid, rfl, rfl⟩
  refine ⟨t, hexec, hends, hwork.entries, fun hst hl => (hwork.live run.unit).trans ?_⟩
  have hl' : run.unit < (slotRecorded b u m data .enrol s.part).store.units.length := by rwa [slotRecorded_unitCount]
  simp [enrolledIn, hst, Store.dropGen, Store.addLive, modify_unit_same _ hl', slotRecorded_live]

theorem enrol_makesEntry {run : PageRun} (h : LastSlot s b u m data q r .enrol []) (hrun : s.part.cat.run = some run)
    (he : findKey s.part.cat.entries r.key = none) :
    ∃ t, exec (.slotProgramDone b .done) s = .next t ∧
      EndsRequest s t r s.part.cat.queue .ok (resultArea
        [(64, leBytes 4 1), (68, leBytes 4 (crc32 s.part.cat.buffer)), (72, leBytes 1 run.pages), (74, leBytes 2 run.unit),
         (76, leBytes 4 0), (80, leBytes 2 s.part.cat.overruns)]) ∧
      t.part.cat.entries = s.part.cat.entries ++
        [(newEntry s.part r.key r.enrolRuleSet).enrolled r.enrolRuleSet s.part.cat.buffer run] := by
  obtain ⟨t, hexec, hends, hwork⟩ := h.endsOk (applyEnrol_new h.req hrun he) ⟨_, _, rfl, rfl⟩
  exact ⟨t, hexec, hends, hwork.entries⟩

theorem discard_takesEffect (h : LastSlot s b u m data q r (.discard e.key) [.discardEnd])
    (he : findKey s.part.cat.entries e.key = some e) :
    ∃ t, exec (.slotProgramDone b .done) s = .next t ∧
      EndsRequest s t r s.part.cat.queue .ok (resultArea [(64, leBytes 2 (s.part.cat.dropped + 1)),
        (66, leBytes 2 (if e.current.isSome then s.part.cat.ceased else s.part.cat.ceased + 1))]) ∧
      t.part.cat.entries = (s.part.cat.entries.map fun y => if y.uid = e.uid then discarded y else y).filter Entry.exists_ := by
  obtain ⟨t, hexec, hends, hwork⟩ := h.endsDiscard (applyDiscard_found he) rfl h.bad h.req h.todo rfl rfl
  exact ⟨t, hexec, hends, hwork.entries⟩

theorem revert_takesEffect (h : LastSlot s b u m data q r (.revert e.key) []) (he : findKey s.part.cat.entries e.key = some e) :
    ∃ t, exec (.slotProgramDone b .done) s = .next t ∧
      EndsRequest s t r s.part.cat.queue .ok (resultArea [(64, leBytes 4 (numberOf e.previous)), (68, leBytes 4 (numberOf e.current))]) ∧
      t.part.cat.entries = s.part.cat.entries.map fun x =>
        if x.uid = e.uid then stampVerdict s.part.line .unchecked (reverted x).emptyPeaks else x := by
  obtain ⟨t, hexec, hends, hwork⟩ := h.endsOk (applyRevert_found he) (.recompute ⟨_, s.part.cat.nextUid, rfl, rfl⟩)
  exact ⟨t, hexec, hends, hwork.entries.trans (revertedIn_entries ..)⟩

end

/-- Settles O46: one lemma for each writer, applied to the slot that is its last (R10, R14, R16, R17, R18). -/
theorem retireTakesEffect : Obligations.RetireTakesEffect := by
  intro s b u m num data q r e x hon hbank hR hB
  have last : ∀ {y w todo}, s.part.cat.await = some (.slot [y] num w) → s.part.cat.todo = todo → LastSlot s b u m data q r w todo :=
    fun hA hT => ⟨hon, hbank, ⟨_, _, hA⟩, hR, hT, hB⟩
  refine ⟨fun hA hT he => retire_takesEffect (last hA hT) he, fun run hA hT hrun he => ?_, fun run hA hT hrun he => ?_,
    fun hA hT he => ?_, fun g c hA hT he hg hc => ?_⟩
  · exact enrol_takesEffect (last hA hT) hrun he
  · exact enrol_makesEntry (last hA hT) hrun he
  · obtain ⟨t, hexec, hends, hentries⟩ := discard_takesEffect (last hA hT) he
    refine ⟨t, hexec, ?_, hentries⟩
    cases hc : e.current <;> simpa [hc] using hends
  · obtain ⟨t, hexec, hends, hentries⟩ := revert_takesEffect (last hA hT) he
    exact ⟨t, hexec, by simpa [numberOf, hg, hc] using hends, hentries⟩

end Sys2Proof.Machine
end

section
/-! O47: the change that follows the records of COMMIT, RULE_LOAD, STATION_DEFINE and PARAM_SET. -/
namespace Sys2Proof.Machine

/-! ## The stations after a recomputation -/

/-- A station's state follows from the line, the entries, and every place's persistent fields (R90). -/
theorem stationStateOf_congr {p q : Part} {n : Nat} (he : q.cat.entries = p.cat.entries) (hc : q.line.comparison = p.line.comparison)
    (hep : q.line.epoch = p.line.epoch) (hs : (q.line.station n).image = (p.line.station n).image) :
    stationStateOf q n = stationStateOf p n := by
  have hd : (q.line.station n).defined = (p.line.station n).defined := congrArg StationImage.defined hs
  have hh : (q.line.station n).heldOut = (p.line.station n).heldOut := congrArg StationImage.heldOut hs
  simp only [stationStateOf, judgedEntries, he, hc, hep, hd, hh]

/-- The recomputation gives a place its state and counts afresh (R91). -/
theorem recompute_station {p : Part} {n : Nat} (h : n < p.line.stations.length) :
    (recompute p).line.station n = { p.line.station n with state := stationStateOf p n, counts := judgedCountsOf p n } := by
  obtain ⟨c, hl⟩ := (recompute_frame p).1
  rw [hl]
  simp [Line.station, judgeStations, h]

/-- The recomputation leaves the persistent fields of every place (R91). -/
theorem recompute_stationImage (p : Part) (n : Nat) : ((recompute p).line.station n).image = (p.line.station n).image := by
  by_cases h : n < p.line.stations.length
  · rw [recompute_station h]
    rfl
  · obtain ⟨c, hl⟩ := (recompute_frame p).1
    rw [hl]
    simp [Line.station, judgeStations, h]

theorem recompute_stationImages (p : Part) : (recompute p).line.stations.map Station.image = p.line.stations.map Station.image := by
  obtain ⟨c, hl⟩ := (recompute_frame p).1
  rw [hl]
  refine List.ext_getElem (by simp [judgeStations]) fun i h1 h2 => ?_
  have hi : i < p.line.stations.length := by simpa using h2
  simp [judgeStations, Line.station, Station.image, hi]

@[simp] theorem recompute_lineParams (p : Part) : (recompute p).line.params = p.line.params := by
  obtain ⟨c, h⟩ := (recompute_frame p).1
  rw [h]

theorem recompute_comparison (p : Part) : (recompute p).line.comparison = p.line.comparison := by
  simp only [Line.comparison, recompute_lineState, recompute_lineActive, recompute_lineTarget]

/-- Recomputed station states are settled: computing them again gives the same (R91). -/
theorem stationStateOf_recompute (p : Part) (n : Nat) : stationStateOf (recompute p) n = stationStateOf p n :=
  stationStateOf_congr (by rw [recompute_cat]) (recompute_comparison p) (recompute_lineEpoch p) (recompute_stationImage p n)

theorem modifyStation_same {p : Part} {n : Nat} (f : Station → Station) (h : n < p.line.stations.length) :
    (p.modifyStation n f).line.station n = f (p.line.station n) := modifyNth_getD_same f n p.line.stations .blank h

theorem modifyStation_other {p : Part} {n k : Nat} (f : Station → Station) (h : k ≠ n) :
    (p.modifyStation n f).line.station k = p.line.station k := modifyNth_getD_other f n k p.line.stations .blank h

/-! ## Commit -/

theorem eq_of_uid {es : List Entry} {x y : Entry} (hn : (es.map Entry.uid).Nodup) (hx : x ∈ es) (hy : y ∈ es) (h : x.uid = y.uid) :
    x = y := by
  induction es with
  | nil => cases hx
  | cons a as ih =>
    rw [List.map_cons, List.nodup_cons] at hn
    obtain ⟨hne, hn⟩ := hn
    rcases List.mem_cons.1 hx with rfl | hxs <;> rcases List.mem_cons.1 hy with rfl | hys
    · rfl
    · exact absurd (h ▸ List.mem_map_of_mem hys) hne
    · exact absurd (h ▸ List.mem_map_of_mem hxs) hne
    · exact ih hn hxs hys

/-- Where uids tell entries apart, the entries a COMMIT changes are those of the format with a staged generation (R15). -/
theorem commits_iff {p : Part} {f : Nat} {e : Entry} (hn : (p.cat.entries.map Entry.uid).Nodup) (he : e ∈ p.cat.entries) :
    ((stagedOf p f).any fun x => decide (x.uid = e.uid)) = true ↔ e.key.format = f ∧ e.staged ≠ none := by
  rw [List.any_eq_true]
  constructor
  · rintro ⟨x, hx, hu⟩
    obtain ⟨hmem, hf, hs⟩ := mem_stagedOf.1 hx
    obtain rfl := eq_of_uid hn hmem he (of_decide_eq_true hu)
    exact ⟨hf, Option.isSome_iff_ne_none.1 hs⟩
  · rintro ⟨hf, hs⟩
    exact ⟨e, mem_stagedOf.2 ⟨he, hf, Option.isSome_iff_ne_none.2 hs⟩, decide_eq_true rfl⟩

/-- The part once a format is committed (R15, R19). -/
def committedIn (f : Nat) (p : Part) : Part :=
  let mine (e : Entry) : Bool := (stagedOf p f).any fun x => decide (x.uid = e.uid)
  recompute (uncheck ((p.withStore fun s => (stagedOf p f).foldl (fun s e => s.dropGen e.previous) s).withEntries
    fun all => all.map fun e => if mine e then (committed e).emptyPeaks else e) mine)

theorem applyCommit_eq (f : Nat) (p : Part) : applyCommit f p = thenOk [(64, leBytes 4 (stagedOf p f).length)] (committedIn f p) := rfl

theorem committedIn_entries {f : Nat} {p : Part} (hn : (p.cat.entries.map Entry.uid).Nodup) :
    (committedIn f p).cat.entries = p.cat.entries.map fun e =>
      if e.key.format = f ∧ e.staged ≠ none then stampVerdict p.line .unchecked (committed e).emptyPeaks else e := by
  simp only [committedIn, recompute_cat, uncheck, Part.withEntries_entries, List.map_map]
  refine List.map_congr_left fun e he => ?_
  by_cases h : e.key.format = f ∧ e.staged ≠ none
  · have hany := (commits_iff hn he).2 h
    have hu : (committed e).emptyPeaks.uid = e.uid := rfl
    simp only [Function.comp_apply, hany, if_true, hu, if_pos h]
    rfl
  · have hany := mt (commits_iff hn he).1 h
    simp only [Function.comp_apply, if_neg hany, if_neg h]

/-! ## Rule sets -/

/-- The part once a rule set is replaced, its old image no longer live (R35, R36). -/
def withRuleSet (n : Nat) (new : RuleSet) (f : Store → Store) (p : Part) : Part :=
  { p with rules := putRuleSet p.rules n new, store := dropImage (f p.store) (ruleSetAt p.rules n).image }

theorem applyRuleLoad_eq {p : Part} {r : Request} {run : PageRun} (hr : p.cat.req = some r) (hrun : p.cat.run = some run) :
    applyRuleLoad p = thenOk
      [(64, leBytes 1 r.loadCount), (65, leBytes 1 (ruleSetAt p.rules r.loadSet).count),
       (66, leBytes 2 (rulesHeldBeside p.rules r.loadSet + r.loadCount)), (68, leBytes 4 (crc32 p.cat.buffer)),
       (72, leBytes 2 run.unit), (74, leBytes 1 run.pages)]
      (withRuleSet r.loadSet (.loaded (loadedImage p r run) (rulesOf p.cat.buffer r.loadCount)) (fun s => s.addLive run.unit run.pages) p) := by
  simp only [applyRuleLoad, hr, hrun]
  rfl

theorem applyRuleDelete_eq (n : Nat) (p : Part) :
    applyRuleDelete n p = thenOk [(65, leBytes 1 (ruleSetAt p.rules n).count), (66, leBytes 2 (rulesHeldBeside p.rules n))]
      (withRuleSet n .absent id p) := rfl

theorem ruleSetAt_put {rules : List RuleSet} {n k : Nat} (new : RuleSet) (h : k < rules.length) :
    ruleSetAt (putRuleSet rules n new) k = if k = n then new else ruleSetAt rules k := by
  split
  · rename_i hk
    subst hk
    exact modifyNth_getD_same _ k rules .absent h
  · rename_i hk
    exact modifyNth_getD_other _ n k rules .absent hk

/-! ## Stations and parameters -/

/-- The part once a station's place is changed and its mark settled (R87). -/
def withPlace (f : Request → Station → Station) (r : Request) (p : Part) : Part :=
  recompute (p.modifyStation r.defineStation fun s => { f r s with mark := s.mark.settle })

theorem applyStation_eq {p : Part} {r : Request} (f : Request → Station → Station) (hr : p.cat.req = some r) :
    applyStation f p = thenOk
      [(64, leBytes 1 r.defineStation), (65, leBytes 1 r.defineAction),
       (66, leBytes 1 ((withPlace f r p).line.station r.defineStation).state.value)] (withPlace f r p) := by
  simp only [applyStation, hr]
  rfl

theorem withPlace_image {p : Part} {r : Request} (f : Request → Station → Station) (h : r.defineStation < p.line.stations.length) :
    ((withPlace f r p).line.station r.defineStation).image = (f r (p.line.station r.defineStation)).image := by
  rw [withPlace, recompute_stationImage, modifyStation_same _ h]
  rfl

theorem withPlace_image_other {p : Part} {r : Request} (f : Request → Station → Station) {k : Nat} (h : k ≠ r.defineStation) :
    ((withPlace f r p).line.station k).image = (p.line.station k).image := by
  rw [withPlace, recompute_stationImage, modifyStation_other _ h]

/-- The place's state is what the line and the catalogue make of it (R90). -/
theorem withPlace_state {p : Part} {r : Request} (f : Request → Station → Station) (h : r.defineStation < p.line.stations.length) :
    ((withPlace f r p).line.station r.defineStation).state = stationStateOf (withPlace f r p) r.defineStation := by
  rw [withPlace, stationStateOf_recompute, recompute_station (by simpa [Part.modifyStation, modifyNth_length] using h)]

theorem applyParams_eq {p : Part} {r : Request} (hr : p.cat.req = some r) :
    applyParams p = thenOk
      [(64, leBytes 4 (askedParams r).staleness), (68, leBytes 1 (boolNat (askedParams r).operatorAdmit)),
       (69, leBytes 1 (boolNat (askedParams r).override)),
       (70, leBytes 1 (boolNat (decide ((askedParams r).staleness ≠ r.staleness))))] (takeParams p (askedParams r)) := by
  simp only [applyParams, hr]

/-- The limit asked for is brought into 30 to 3600 (R102). -/
theorem askedParams_eq (r : Request) : askedParams r =
    { staleness := max 30 (min 3600 r.staleness), operatorAdmit := decide (r.operatorAdmit = 1)
      override := decide (r.overrideParam = 1) } := by
  have hc : clampTo 30 3600 r.staleness = max 30 (min 3600 r.staleness) := by
    unfold clampTo
    split
    · omega
    · split <;> omega
  simp only [askedParams, hc, Params.mk.injEq, true_and]
  exact ⟨Bool.beq_eq_decide_eq .., Bool.beq_eq_decide_eq ..⟩

/-- Which verdicts new parameters make STALE, in the terms of R101. -/
theorem fallenDue_iff (l : Line) (ps : Params) (e : Entry) : fallenDue { l with params := ps } e = true ↔
    l.state = .running ∧ (e.verdict = .conform ∨ e.verdict = .tolerated) ∧ min (e.second + ps.staleness) 0xFFFFFFFF ≤ l.seconds := by
  have hages : e.verdict.ages = true ↔ e.verdict = .conform ∨ e.verdict = .tolerated := by cases e.verdict <;> simp [Verdict.ages]
  rw [fallenDue, Bool.and_eq_true, Bool.and_eq_true, decide_eq_true_iff, decide_eq_true_iff, hages, and_assoc]
  rfl

theorem takeParams_entries (p : Part) (ps : Params) : (takeParams p ps).cat.entries = p.cat.entries.map fun e =>
    if p.line.state = .running ∧ (e.verdict = .conform ∨ e.verdict = .tolerated) ∧
        min (e.second + ps.staleness) 0xFFFFFFFF ≤ p.line.seconds then
      { e with verdict := .stale, second := p.line.seconds, epoch := p.line.epoch } else e := by
  simp only [takeParams, recompute_cat, Part.withEntries_entries]
  refine List.map_congr_left fun e _ => ?_
  simp only [fallenDue_iff]
  rfl

/-! ## The ends of the requests -/

section
variable {s : State} {b : Bank} {u m : Nat} {data : List Byte} {q : List BankJob} {r : Request}

theorem commit_takesEffect {f : Nat} (h : LastSlot s b u m data q r (.commit f) []) (hn : (s.part.cat.entries.map Entry.uid).Nodup) :
    ∃ t, exec (.slotProgramDone b .done) s = .next t ∧
      EndsRequest s t r s.part.cat.queue .ok (resultArea [(64, leBytes 4 (stagedOf s.part f).length)]) ∧
      t.part.cat.entries = s.part.cat.entries.map fun e =>
        if e.key.format = f ∧ e.staged ≠ none then stampVerdict s.part.line .unchecked (committed e).emptyPeaks else e := by
  obtain ⟨t, hexec, hends, hwork⟩ := h.endsOk (applyCommit_eq f _) (.recompute ⟨_, s.part.cat.nextUid, rfl, rfl⟩)
  exact ⟨t, hexec, hends, hwork.entries.trans (committedIn_entries hn)⟩

theorem ruleLoad_takesEffect {run : PageRun} (h : LastSlot s b u m data q r .ruleLoad []) (hrun : s.part.cat.run = some run) :
    ∃ t, exec (.slotProgramDone b .done) s = .next t ∧
      EndsRequest s t r s.part.cat.queue .ok (resultArea
        [(64, leBytes 1 r.loadCount), (65, leBytes 1 (ruleSetAt s.part.rules r.loadSet).count),
         (66, leBytes 2 (rulesHeldBeside s.part.rules r.loadSet + r.loadCount)), (68, leBytes 4 (crc32 s.part.cat.buffer)),
         (72, leBytes 2 run.unit), (74, leBytes 1 run.pages)]) ∧
      (∀ k < s.part.rules.length, ruleSetAt t.part.rules k = if k = r.loadSet then
        .loaded (loadedImage s.part r run) (rulesOf s.part.cat.buffer r.loadCount) else ruleSetAt s.part.rules k) ∧
      t.part.cat.entries = s.part.cat.entries ∧ t.part.line = s.part.line := by
  obtain ⟨t, hexec, hends, hwork⟩ := h.endsOk (applyRuleLoad_eq h.req hrun) ⟨_, s.part.cat.nextUid, rfl, rfl⟩
  exact ⟨t, hexec, hends, fun k hk => hwork.rules ▸ ruleSetAt_put _ hk, hwork.entries, hwork.line⟩

theorem ruleDelete_takesEffect {n : Nat} (h : LastSlot s b u m data q r (.ruleDelete n) []) :
    ∃ t, exec (.slotProgramDone b .done) s = .next t ∧
      EndsRequest s t r s.part.cat.queue .ok
        (resultArea [(65, leBytes 1 (ruleSetAt s.part.rules n).count), (66, leBytes 2 (rulesHeldBeside s.part.rules n))]) ∧
      (∀ k < s.part.rules.length, ruleSetAt t.part.rules k = if k = n then .absent else ruleSetAt s.part.rules k) ∧
      t.part.cat.entries = s.part.cat.entries ∧ t.part.line = s.part.line := by
  obtain ⟨t, hexec, hends, hwork⟩ := h.endsOk (applyRuleDelete_eq n _) ⟨_, s.part.cat.nextUid, rfl, rfl⟩
  exact ⟨t, hexec, hends, fun k hk => hwork.rules ▸ ruleSetAt_put _ hk, hwork.entries, hwork.line⟩

/-- DEFINE and UNDEFINE: the place as asked for, the others and all else of their kind as they were (R87). -/
theorem station_takesEffect {w : Writer} {f : Request → Station → Station} (h : LastSlot s b u m data q r w [])
    (hw : ∀ p, written w p = applyStation f p) (hn : r.defineStation < s.part.line.stations.length) :
    ∃ t, exec (.slotProgramDone b .done) s = .next t ∧
      EndsRequest s t r s.part.cat.queue .ok (resultArea
        [(64, leBytes 1 r.defineStation), (65, leBytes 1 r.defineAction),
         (66, leBytes 1 (stationStateOf t.part r.defineStation).value)]) ∧
      (t.part.line.station r.defineStation).state = stationStateOf t.part r.defineStation ∧
      (t.part.line.station r.defineStation).image = (f r (s.part.line.station r.defineStation)).image ∧
      (∀ k, k ≠ r.defineStation → (t.part.line.station k).image = (s.part.line.station k).image) ∧
      t.part.cat.entries = s.part.cat.entries ∧ t.part.rules = s.part.rules ∧ t.part.line.params = s.part.line.params := by
  obtain ⟨t, hexec, hends, hwork⟩ := h.endsOk ((hw _).trans (applyStation_eq f h.req)) (.recompute ⟨_, s.part.cat.nextUid, rfl, rfl⟩)
  have hline : t.part.line = (withPlace f r (slotRecorded b u m data w s.part)).line := hwork.line
  have hentries : t.part.cat.entries = s.part.cat.entries := hwork.entries.trans (by simp [withPlace])
  have hstate : stationStateOf t.part r.defineStation =
      stationStateOf (withPlace f r (slotRecorded b u m data w s.part)) r.defineStation :=
    stationStateOf_congr hwork.entries (by rw [hline]) (by rw [hline]) (by rw [hline])
  have hplace := withPlace_state (p := slotRecorded b u m data w s.part) (r := r) f hn
  refine ⟨t, hexec, ?_, ?_, ?_, fun k hk => ?_, hentries, hwork.rules.trans (by simp [withPlace]), ?_⟩
  · rw [hstate, ← hplace]
    exact hends
  · rw [hstate, ← hplace, hline]
  · rw [hline]
    exact withPlace_image f hn
  · rw [hline]
    exact withPlace_image_other f hk
  · rw [hline, withPlace, recompute_lineParams]
    rfl

theorem paramSet_takesEffect (h : LastSlot s b u m data q r .paramSet []) :
    ∃ t, exec (.slotProgramDone b .done) s = .next t ∧
      EndsRequest s t r s.part.cat.queue .ok (resultArea
        [(64, leBytes 4 (askedParams r).staleness), (68, leBytes 1 (boolNat (askedParams r).operatorAdmit)),
         (69, leBytes 1 (boolNat (askedParams r).override)),
         (70, leBytes 1 (boolNat (decide ((askedParams r).staleness ≠ r.staleness))))]) ∧
      t.part.line.params = askedParams r ∧
      t.part.line.stations.map Station.image = s.part.line.stations.map Station.image ∧
      t.part.cat.entries = (takeParams s.part (askedParams r)).cat.entries ∧ t.part.rules = s.part.rules := by
  obtain ⟨t, hexec, hends, hwork⟩ := h.endsOk (applyParams_eq h.req) (.recompute ⟨_, s.part.cat.nextUid, rfl, rfl⟩)
  refine ⟨t, hexec, hends, ?_, ?_, hwork.entries.trans ?_, hwork.rules.trans (by simp [takeParams])⟩
  · rw [hwork.line, takeParams, recompute_lineParams]
    rfl
  · rw [hwork.line, takeParams, recompute_stationImages]
    rfl
  · simp only [takeParams, recompute_cat, Part.withEntries_entries]
    rfl

end

/-- Settles O47: one lemma for each writer, applied to the slot that is its last (R15, R35, R36, R87, R102). -/
theorem commitTakesEffect : Obligations.CommitTakesEffect := by
  intro s b u m num f n data q r x old hon hbank hR hT hB
  have last : ∀ {y w}, s.part.cat.await = some (.slot [y] num w) → LastSlot s b u m data q r w [] :=
    fun hA => ⟨hon, hbank, ⟨_, _, hA⟩, hR, hT, hB⟩
  refine ⟨fun hA hn => commit_takesEffect (last hA) hn, fun run hA hrun ho => ?_, fun hA ho => ?_, fun hA hs hn ho => ?_,
    fun hA hs hn => ?_, fun ps hA hps => ?_⟩
  · subst ho
    exact ruleLoad_takesEffect (last hA) hrun
  · subst ho
    exact ruleDelete_takesEffect (last hA)
  · subst hs
    obtain ⟨t, hexec, hends, hstate, himage, hothers⟩ := station_takesEffect (f := defineAs) (last hA) (fun _ => rfl) hn
    have horder : orderOf r.defineOrder = if r.defineOrder = 1 then .big else .little := by
      rcases ho with ho | ho <;> simp [orderOf, ho]
    refine ⟨t, hexec, hends, hstate, himage.trans ?_, hothers⟩
    simp [defineAs, Station.define, Station.image, horder]
  · subst hs
    obtain ⟨t, hexec, hends, hstate, himage, hothers⟩ := station_takesEffect (f := fun _ => Station.undefine) (last hA) (fun _ => rfl) hn
    have hd : (t.part.line.station r.defineStation).defined = false := congrArg StationImage.defined himage
    have hundef : stationStateOf t.part r.defineStation = .undefined := by simp [stationStateOf, hd]
    rw [hundef] at hends
    exact ⟨t, hexec, hends, hd, congrArg StationImage.heldOut himage, hstate.trans hundef, hothers⟩
  · rw [← askedParams_eq] at hps
    subst hps
    obtain ⟨t, hexec, hends, hparams, himages, hentries, hrules⟩ := paramSet_takesEffect (last hA)
    exact ⟨t, hexec, by simpa [boolNat] using hends, hparams, himages, hentries.trans (takeParams_entries ..), hrules⟩

end Sys2Proof.Machine
end

section
/-! The walk over an image covers it (R27), and how the requests about rule sets, stations and parameters begin (R32, R34, R36, R87,
R102). -/
namespace Sys2Proof.Machine

/-! ## The walk covers its image -/

/-- Where a piece of the walk begins. -/
def Piece.offset : Piece → Nat
  | .claimed o _ _ => o
  | .uncovered o => o

/-- The pieces cover the bytes from o up to L, each beginning where the one before it ends. -/
def Tiles (L : Nat) : Nat → List Piece → Prop
  | o, [] => o = L
  | o, x :: xs => x.offset = o ∧ Tiles L (o + x.width) xs

theorem FieldKind.width_pos (k : FieldKind) : 0 < k.width := by cases k <;> decide

/-- Every step of the walk goes forward by the width of its piece and stays inside the image (R27). -/
theorem walkFrom_tiles (rules : List FieldRule) (L fuel o : Nat) (ho : o ≤ L) (hfuel : L ≤ o + fuel) :
    Tiles L o (walkFrom rules L fuel o).1 := by
  induction fuel generalizing o with
  | zero => exact Nat.le_antisymm ho hfuel
  | succ fuel ih =>
    by_cases hend : o < L
    · have hbyte : Tiles L (o + 1) (walkFrom rules L fuel (o + 1)).1 := ih _ hend (by omega)
      rw [walkFrom, if_pos hend]
      cases firstMatch rules 0 o with
      | none => exact ⟨rfl, hbyte⟩
      | some m =>
        obtain ⟨i, r⟩ := m
        by_cases hfit : o + r.kind.width ≤ L
        · have hpos := r.kind.width_pos
          have hrest : Tiles L (o + r.kind.width) (walkFrom rules L fuel (o + r.kind.width)).1 := ih _ hfit (by omega)
          simp only [if_pos hfit]
          exact ⟨rfl, hrest⟩
        · simp only [if_neg hfit]
          exact ⟨rfl, hbyte⟩
    · rw [walkFrom, if_neg hend]
      exact Nat.le_antisymm ho (Nat.le_of_not_lt hend)

theorem claimWalk_tiles (rules : List FieldRule) (L : Nat) : Tiles L 0 (claimWalk rules L).1 :=
  walkFrom_tiles rules L L 0 (Nat.zero_le L) (by omega)

theorem Tiles.sum_width {L o : Nat} {ps : List Piece} (h : Tiles L o ps) : o + (ps.map Piece.width).sum = L := by
  induction ps generalizing o with
  | nil => exact h
  | cons x xs ih =>
    obtain ⟨-, hrest⟩ := h
    rw [List.map_cons, List.sum_cons, ← Nat.add_assoc]
    exact ih hrest

theorem Tiles.offset_eq {L o : Nat} {before after : List Piece} {x : Piece} (h : Tiles L o (before ++ x :: after)) :
    x.offset = o + (before.map Piece.width).sum := by
  induction before generalizing o with
  | nil =>
    obtain ⟨hx, -⟩ := h
    exact hx
  | cons y ys ih =>
    obtain ⟨-, hrest⟩ := h
    rw [List.map_cons, List.sum_cons, ← Nat.add_assoc]
    exact ih hrest

/-- Settles O12: the pieces of the walk tile the offsets from 0 to L (R27). -/
theorem walkCoversEveryByte : Obligations.WalkCoversEveryByte := by
  intro rules L
  have htiles := claimWalk_tiles rules L
  refine ⟨by simpa using htiles.sum_width, fun before after x hsplit => ?_⟩
  have hoffset : x.offset = (before.map Piece.width).sum := by
    rw [hsplit] at htiles
    simpa using htiles.offset_eq
  cases x <;> exact hoffset

/-! ## Requests that ask for one record -/

/-- Reading a writer's values changes nothing but marks of the line (R87, R100). -/
theorem readFor_eq (p : Part) (w : Writer) : ∃ l, readFor p w = { p with line := l } := by
  unfold readFor
  repeat' split
  all_goals exact ⟨_, rfl⟩

/-- With room for them a writer's records are read off and go on to be written (R127). -/
theorem cuRun_append {p : Part} {u k : Nat} {w : Writer} {rest : List CuOp} {recs : List JournalRecord} (n : Nat)
    (hA : p.cat.await = none) (hT : p.cat.todo = .append (some k) false w :: rest) (hrecs : recordsOf p w = recs) (hne : recs ≠ [])
    (hroom : RoomFor p u k) : cuRun (n + 1) p = cuRun n (push [.write recs w] (readFor (onlyDo rest p) w)) := by
  obtain ⟨-, hfree, -⟩ := hroom
  have htest : roomTest (onlyDo rest p) k = true := decide_eq_true hfree
  obtain ⟨l, hl⟩ := readFor_eq (onlyDo rest p) w
  refine cuRun_steady n hA hT ?_ (by rw [hl]; rfl)
  simp [workOp, appendRecords, recordsOf_onlyDo, hrecs, hne, htest]

/-- The first of some records is asked for where the ring gives room (R125, R127). -/
theorem cuRun_write {p : Part} {u k : Nat} {w : Writer} {rest : List CuOp} {x : JournalRecord} {xs : List JournalRecord} (n : Nat)
    (hA : p.cat.await = none) (hT : p.cat.todo = .write (x :: xs) w :: rest) (hroom : RoomFor p u k) :
    cuRun (n + 1) p = putInUnit (onlyDo rest p) u (x :: xs) w := by
  have hput : workOp (.write (x :: xs) w) (onlyDo rest p) = putInUnit (onlyDo rest p) u (x :: xs) w :=
    putRecord_here (k := k) _ _ hroom
  rw [cuRun_steady n hA hT hput (ask_freeCount ..), cuRun_awaiting n rfl]

/-- A writer asks for the slot of the first of its records, also where it marks the value of its station as read (R10, R87). -/
theorem cuWork_append_read {p : Part} {u k : Nat} {w : Writer} {rest : List CuOp} {recs : List JournalRecord}
    (hA : p.cat.await = none) (hT : p.cat.todo = .append (some k) false w :: rest) (hW : p.cat.work ≠ .idle)
    (hrecs : recordsOf p w = recs) (hne : recs ≠ []) (hroom : RoomFor p u k) : AsksForRecord p (cuWork p) u recs w := by
  obtain ⟨x, xs, rfl⟩ := List.exists_cons_of_ne_nil hne
  obtain ⟨l, hl⟩ := readFor_eq (onlyDo rest p) w
  have hwork : cuWork p = handOver (putInUnit (onlyDo rest { p with line := l }) u (x :: xs) w) := by
    have hwrite := cuRun_write (p := push [.write (x :: xs) w] { onlyDo rest p with line := l }) 8190 hA rfl hroom
    rw [cuWork, show Config.workBound = 8190 + 1 + 1 from rfl, cuRun_append _ hA hT hrecs hne hroom, hl, hwrite]
    exact cuSettle_working hW
  rw [hwork]
  constructor <;> rfl

/-- An admitted head request whose own part is to append one record begins by asking for it (R10). -/
theorem exec_beginsRecord {s : State} {r : Request} {rest : List Request} {u : Nat} {wanted : Request → Bool}
    {go : Request → Part → Part} {w : Writer} {x : JournalRecord} (hturn : RequestTurn s r rest) (hadm : Admitted s r)
    (hroom : RoomFor s.part u 1) (hw : wanted r = true)
    (hgo : go r (takeHead s.part r rest) = push [.append (some 1) false w] (takeHead s.part r rest))
    (hrecs : recordsOf (push [.append (some 1) false w] (takeHead s.part r rest)) w = [x]) :
    ∃ t, (s.apply fun p => beginHead p wanted go) = .next t ∧ BeginsRecord s t r rest u [x] w := by
  have hasks := cuWork_append_read (rest := []) (by simpa [push] using hturn.await_none) (by simp [push]) (by simp [push]) hrecs
    (by simp) (roomFor_takeHead r rest _ hroom)
  exact ⟨_, exec_begins hturn hw hadm.openingTests hgo, hasks.beginsRecord ⟨_, rfl⟩⟩

theorem nameOk_iff {name : List Byte} : nameOk name = true ↔ ∀ b ∈ name, 0x20 ≤ b.toNat ∧ b.toNat ≤ 0x7E := by simp [nameOk]

theorem orderOf_eq {n : Nat} (h : n = 1 ∨ n = 2) : orderOf n = if n = 1 then .big else .little := by
  rcases h with rfl | rfl <;> rfl

/-- Settles O45: with its tests passed each of the four asks for the record of its item as it will be (R36, R87, R102). -/
theorem setStationAndParameterRequestsBegin : Obligations.SetStationAndParameterRequestsBegin := by
  intro s r rest u hturn hadm hroom
  refine ⟨fun hk hcount hset himage huse => ?_, fun hk hst hact hord hname => ?_, fun hk hst hact hdef huse => ?_,
    fun hk hop hov => ?_⟩
  · have htests : ruleDeleteTests (takeHead s.part r rest) r = none :=
      firstCode_none (by simpa [hset, Option.isSome_iff_ne_none, himage] using huse)
    exact exec_beginsRecord (go := beginRuleDelete) hturn hadm hroom (by simp [isKind, hk, hcount])
      (by rw [beginRuleDelete, htests, whenPassed]) rfl
  · have htests : defineTests r = none := firstCode_none (by simp [hst, hact, hord, nameOk_iff.2 hname])
    exact exec_beginsRecord (go := beginDefine) hturn hadm hroom (by simp [isKind, hk, hact])
      (by rw [beginDefine, htests, whenPassed]) (by simp [recordsOf, push, Station.define, Station.image, orderOf_eq hord])
  · have htests : undefineTests (takeHead s.part r rest) r = none := firstCode_none (by simpa [hst, hdef] using huse)
    exact exec_beginsRecord (go := beginUndefine) hturn hadm hroom (by simp [isKind, hk, hact])
      (by rw [beginUndefine, htests, whenPassed]) (by simp [recordsOf, push, Station.undefine, Station.image])
  · have htests : firstCode [(decide (r.operatorAdmit ≤ 1), .badParameter), (decide (r.overrideParam ≤ 1), .badParameter)] = none :=
      firstCode_none (by simp [hop, hov])
    exact exec_beginsRecord (go := beginParamSet) hturn hadm hroom (isKind_of_eq hk)
      (by rw [beginParamSet, htests, whenPassed]) (by simp [recordsOf, push, askedParams_eq])

/-! ## Loading a rule set -/

/-- The run-flag test leaves the flash as it is (R117, R118). -/
@[simp] theorem reclaimTest_flash (p : Part) : (reclaimTest p).store.flash = p.store.flash := by
  rcases reclaimTest_cases p with h | h | h <;> rw [h] <;> rfl

@[simp] theorem cuSettle_att (p : Part) : (cuSettle p).att = p.att := cuSettle_frame _ p (fun _ => rfl) (fun _ => rfl)

@[simp] theorem cuSettle_flash (p : Part) : (cuSettle p).store.flash = p.store.flash := by
  unfold cuSettle
  split
  · exact reclaimTest_flash p
  · rfl

/-- A request that finishes at once hands its completion over, and its job ends. -/
theorem cuWork_finishWith {p : Part} {r : Request} (code : Code) (items : List (Nat × List Byte)) (hA : p.cat.await = none)
    (hR : p.cat.req = some r) : cuWork (finishWith code items p) =
      cuSettle (endJob (complete (handOver (onlyDo [] p)) r code (some (resultArea items)) none)) := by
  have hfin : workOp (.finish code (resultArea items)) (onlyDo [] (finishWith code items p)) =
      complete (handOver (onlyDo [] p)) r code (some (resultArea items)) none := by
    simp [workOp, finishWith, onlyDo, Part.withCat, hR]
  have hdone := cuRun_done (p := complete (handOver (onlyDo [] p)) r code (some (resultArea items)) none) 8190 hA rfl
  rw [cuWork, show Config.workBound = 8190 + 1 + 1 from rfl, cuRun_steady (p := finishWith code items p) _ hA rfl hfin rfl, hdone]

/-- With its arguments in range a RULE_LOAD turns on the total of Rule Memory (R32, R34). -/
theorem beginRuleLoad_eq {r : Request} {p : Part} {T : Nat} (hset : r.loadSet ≤ 63) (hcount : r.loadCount ≤ 128)
    (hal : r.address % 8 = 0) (hT : T = rulesHeldBeside p.rules r.loadSet) : beginRuleLoad r p =
    if T + r.loadCount ≤ 512 then awaitHost p else finishWith .rulesFull [(66, leBytes 2 T)] p := by
  have htests : firstCode [(decide (r.loadSet ≤ 63), .noRuleset), (decide (r.loadCount ≤ 128), .badLength),
      (r.aligned, .badAddress)] = none := firstCode_none (by simp [Request.aligned, hset, hcount, hal])
  rw [beginRuleLoad, htests, hT]
  rfl

/-- Settles O52: within 512 rules a RULE_LOAD waits for its array, over them it ends at once (R32, R34). -/
theorem ruleLoadBegins : Obligations.RuleLoadBegins := by
  intro s r rest T hturn hk hadm hset hlo hhi hal hT
  have hw : (isKind .ruleLoad r && decide (r.loadCount ≠ 0)) = true := by simp [isKind, hk, Nat.one_le_iff_ne_zero.1 hlo]
  have hgo := beginRuleLoad_eq (p := takeHead s.part r rest) hset hhi hal (by simpa using hT)
  refine ⟨fun hroom => ?_, fun hfull => ?_⟩
  · refine ⟨_, exec_begins (go := beginRuleLoad) hturn hw hadm.openingTests (hgo.trans (if_pos hroom)), ?_⟩
    rw [cuWork_awaiting rfl, cuSettle_working (by simp [awaitHost])]
    simp [awaitHost]
  · have hA : (takeHead s.part r rest).cat.await = none := by simpa using hturn.await_none
    have hR : (takeHead s.part r rest).cat.req = some r := by simp
    obtain ⟨hwork, hends⟩ := endsRequest_of_finish (s := s) (rest := rest) (code := .rulesFull) (items := [(66, leBytes 2 T)]) hA hR
      (by simp) (by simp)
    have heq := cuWork_finishWith .rulesFull [(66, leBytes 2 T)] hA hR
    exact ⟨_, exec_begins (go := beginRuleLoad) hturn hw hadm.openingTests (hgo.trans (if_neg (Nat.not_le.2 hfull))), hends,
      hwork.rules.trans (by simp), hwork.entries.trans (by simp), hwork.nextSeq.trans (by simp), hwork.line.trans (by simp),
      by simp [heq, endJob, onlyDo], hwork.engine.trans (by simp), by simp [heq, endJob, onlyDo],
      hwork.host.trans (by simp)⟩

end Sys2Proof.Machine
end

section
/-! An image compared with itself (R40 to R56): every piece of the walk keeps the tally clean. -/
namespace Sys2Proof.Machine

/-! ## The rules of the walk -/

theorem firstMatch_mem {rules : List FieldRule} {k o i : Nat} {r : FieldRule} (h : firstMatch rules k o = some (i, r)) :
    r ∈ rules := by
  induction rules generalizing k with
  | nil => cases h
  | cons x xs ih =>
    rw [firstMatch] at h
    split at h
    · cases h
      exact List.mem_cons_self
    · exact List.mem_cons_of_mem x (ih h)

/-- A field of the walk is claimed by a rule of the list walked over (R27). -/
theorem rule_mem_of_walkFrom {rules : List FieldRule} {L fuel p o i : Nat} {r : FieldRule}
    (h : .claimed o i r ∈ (walkFrom rules L fuel p).1) : r ∈ rules := by
  fun_induction walkFrom rules L fuel p with
  | case1 | case5 => cases h
  | case2 fuel p hp j x hmatch hfit rest ih =>
    rcases List.mem_cons.1 h with heq | hrest
    · cases heq
      exact firstMatch_mem hmatch
    · exact ih hrest
  | case3 fuel p hp j x hmatch hover rest ih | case4 fuel p hp hnone rest ih =>
    rcases List.mem_cons.1 h with heq | hrest
    · cases heq
    · exact ih hrest

/-! ## What keeps a tally clean -/

/-- A tally that has met no difference: no finding, nothing tolerated, no open run (R40, R53, R55). -/
structure Tally.Clean (t : Tally) : Prop where
  tolerated : t.tolerated = 0
  total     : t.total = 0
  kept      : t.kept = []
  deviates  : t.deviates = false
  misreads  : t.misreads = false
  run       : t.run = none

namespace Tally.Clean

variable {t : Tally}

theorem zero : Tally.zero.Clean := by constructor <;> rfl

theorem verdict (h : t.Clean) : t.verdict = .conform := by
  simp [Tally.verdict, h.deviates, h.misreads, h.tolerated]

/-- With no open run there is none to end (R53). -/
theorem endRun (h : t.Clean) : t.endRun.Clean := by
  rwa [Tally.endRun, h.run]

/-- Equal bytes open no run (R53). -/
theorem uncovered (h : t.Clean) (o : Nat) (b : Byte) : (t.uncovered o b b).Clean := by
  rw [Tally.uncovered, if_pos rfl]
  exact h.endRun

theorem count (h : t.Clean) : { t with compared := t.compared + 1 }.Clean := { h with }

theorem offerUsage (h : t.Clean) (u : Option Nat) (i o : Nat) : (t.offerUsage u i o).Clean := by
  unfold Tally.offerUsage
  repeat' split
  all_goals exact { h with }

theorem offerTrack (h : t.Clean) (po : Policy) (d : Int) (o : Nat) : (t.offerTrack po d o).Clean := by
  unfold Tally.offerTrack
  split <;> exact { h with }

/-- A field that passes with deviation 0 is counted, and not as tolerated (R50). -/
theorem test (h : t.Clean) (o i : Nat) {r : FieldRule} {b : Int} (hpass : r.policy.passes b 0 = true) : (t.test o i r b b).Clean := by
  simpa [Tally.test, hpass] using (h.count.offerUsage _ i o).offerTrack _ _ o

/-- A field of a numeric kind whose word is well formed passes against itself (R41, R42). -/
theorem numeric (h : t.Clean) (order : ByteOrder) (image : List Byte) (o i : Nat) {r : FieldRule}
    (hread : (r.kind.number (fieldWord order image o r.kind.width)).isSome) (hpass : ∀ b, r.policy.passes b 0 = true) :
    (t.numeric order image image o i r).Clean := by
  obtain ⟨b, hb⟩ := Option.isSome_iff_exists.1 hread
  simpa only [Tally.numeric, hb] using h.test o i (hpass b)

/-- The two halves of a QUAD field equal themselves (R43). -/
theorem quad (h : t.Clean) (order : ByteOrder) (image : List Byte) (o i : Nat) (r : FieldRule) :
    (t.quad order image image o i r).Clean := by
  rw [Tally.quad, if_pos rfl]
  exact h.count

/-- Images of one length make no LENGTH finding (R54). -/
theorem lengths (h : t.Clean) (n : Nat) : (t.lengths n n).Clean := by
  rwa [Tally.lengths, if_pos rfl]

end Tally.Clean

/-! ## The fields -/

/-- A deviation of 0 passes under every policy, under BAND_ABS where the band contains 0 (R45 to R49). -/
theorem Policy.passes_zero {po : Policy} (hband : ∀ lo hi, po = .bandAbs lo hi → lo ≤ 0 ∧ 0 ≤ hi) (b : Int) :
    po.passes b 0 = true := by
  cases po with
  | bandAbs lo hi => exact decide_eq_true (hband lo hi rfl)
  | bandRel permille floor => simp [Policy.passes]
  | exact | watch | track | ignore => rfl

/-- Every word of a kind that is neither BCD nor QUAD stands for a number (R41). -/
theorem FieldKind.number_isSome {k : FieldKind} (hbcd : k.isBcd = false) (hquad : k ≠ .quad) (w : Nat) : (k.number w).isSome := by
  cases k with
  | bcd16 | bcd32 => cases hbcd
  | quad => exact absurd rfl hquad
  | u8 | s8 | u16 | s16 | u32 | s32 => rfl

/-- A field that is screened and found well formed can be read, unless it is a QUAD (R13, R42). -/
theorem number_isSome_of_screened {order : ByteOrder} {image : List Byte} {o i : Nat} {r : FieldRule}
    (hscreen : pieceMalformed order image (.claimed o i r) = none) (hpolicy : r.policy ≠ .ignore) (hquad : r.kind ≠ .quad) :
    (r.kind.number (fieldWord order image o r.kind.width)).isSome := by
  cases hbcd : r.kind.isBcd with
  | false => exact FieldKind.number_isSome hbcd hquad _
  | true => simpa [pieceMalformed, hbcd, hpolicy, Option.isSome_iff_ne_none] using hscreen

/-- One piece of an image against itself keeps the tally clean (R40). -/
theorem Tally.Clean.piece {t : Tally} (h : t.Clean) {order : ByteOrder} {image : List Byte} {x : Piece}
    (hscreen : pieceMalformed order image x = none)
    (hband : ∀ o i r, x = .claimed o i r → ∀ lo hi, r.policy = .bandAbs lo hi → lo ≤ 0 ∧ 0 ≤ hi) :
    (t.piece order image image x).Clean := by
  cases x with
  | uncovered o => exact h.uncovered o _
  | claimed o i r =>
    rw [Tally.piece]
    by_cases hignore : r.policy = .ignore
    · rw [if_pos hignore]
      exact h.endRun
    · rw [if_neg hignore]
      by_cases hquad : r.kind = .quad
      · rw [if_pos hquad]
        exact h.endRun.quad order image o i r
      · rw [if_neg hquad]
        have hread := number_isSome_of_screened hscreen hignore hquad
        exact h.endRun.numeric order image o i hread (Policy.passes_zero (hband o i r rfl))

theorem compareImages_self_clean {rules : List FieldRule} {order : ByteOrder} {image : List Byte}
    (hscreen : screenImage order image (claimWalk rules image.length).1 = none)
    (hband : ∀ r ∈ rules, ∀ lo hi, r.policy = .bandAbs lo hi → lo ≤ 0 ∧ 0 ≤ hi) :
    (compareImages rules order image image).1.Clean := by
  have hpieces := List.findSome?_eq_none_iff.1 hscreen
  have hwalk : ((claimWalk rules image.length).1.foldl (Tally.piece order image image) .zero).Clean :=
    List.foldlRecOn _ _ .zero fun t ht x hx => ht.piece (hpieces x hx) fun o i r heq =>
      hband r (rule_mem_of_walkFrom (heq ▸ hx))
  rw [compareImages, Nat.min_self]
  exact hwalk.endRun.lengths image.length

/-- Settles O13: the tally is clean to the end, so its verdict is CONFORM (R55). -/
theorem imageConformsToItself : Obligations.ImageConformsToItself := by
  intro rules order image hscreen hband
  have hclean := compareImages_self_clean hscreen hband
  exact ⟨hclean.verdict, hclean.total, hclean.kept, hclean.tolerated⟩

end Sys2Proof.Machine
end

section
/-! The sizes that R62, R8, R140, R86 and R23 bound: the two queues, the base and the bundle count of the port, the tables. -/
namespace Sys2Proof.Machine

/-- The lengths of the two queues and of the three tables, with the low register of the base and the bundle count. -/
structure Sizes where
  checks   : Nat
  requests : Nat
  stations : Nat
  sets     : Nat
  bundles  : Nat
  base     : Reg
  count    : Nat

def Part.sizes (p : Part) : Sizes :=
  { checks := p.engine.queue.length, requests := p.cat.queue.length, stations := p.line.stations.length, sets := p.rules.length
    bundles := p.port.bundles.length, base := p.port.baseLo, count := p.port.count }

/-- The sizes are legal, with at most c requests in the check queue and at most k in the catalogue queue. -/
structure Part.Legal (c k : Nat) (p : Part) : Prop where
  checks   : p.engine.queue.length ≤ c
  requests : p.cat.queue.length ≤ k
  stations : p.line.stations.length = 16
  sets     : p.rules.length = 64
  bundles  : p.port.bundles.length = 64
  base     : p.port.baseLo &&& 0xFFF#32 = 0#32
  least    : 4 ≤ p.port.count
  most     : p.port.count ≤ 64

/-- The invariant of the claim is legality with the two queues within their rooms. -/
theorem legal_iff (s : State) : s.part.Legal 12 4 ↔ QueuesBounded s ∧ PortLegal s ∧ TablesWhole s :=
  ⟨fun h => ⟨⟨h.checks, h.requests⟩, ⟨h.base, h.least, h.most⟩, h.stations, h.sets, h.bundles⟩,
    fun ⟨⟨hc, hk⟩, ⟨hb, hl, hm⟩, hs, hr, hn⟩ => ⟨hc, hk, hs, hr, hn, hb, hl, hm⟩⟩

/-- Whether a part is legal shows in its sizes. -/
theorem Part.Legal.of_sizes {c k : Nat} {p q : Part} (h : p.Legal c k) (hq : q.sizes = p.sizes) : q.Legal c k := by
  simp only [Part.sizes, Sizes.mk.injEq] at hq
  obtain ⟨hc, hk, hs, hr, hn, hb, hcount⟩ := hq
  constructor
  · exact hc ▸ h.checks
  · exact hk ▸ h.requests
  · exact hs.trans h.stations
  · exact hr.trans h.sets
  · exact hn.trans h.bundles
  · exact hb ▸ h.base
  · exact hcount ▸ h.least
  · exact hcount ▸ h.most

/-! ## Small updates -/

@[simp] theorem Part.raise_sizes (p : Part) (c : Cause) : (p.raise c).sizes = p.sizes := rfl
@[simp] theorem Part.withStore_sizes (p : Part) (f : Store → Store) : (p.withStore f).sizes = p.sizes := rfl
@[simp] theorem Part.withEntries_sizes (p : Part) (f : List Entry → List Entry) : (p.withEntries f).sizes = p.sizes := rfl
@[simp] theorem Part.modifyEntry_sizes (p : Part) (u : Nat) (f : Entry → Entry) : (p.modifyEntry u f).sizes = p.sizes := rfl
@[simp] theorem Part.hostWrite_sizes (p : Part) (a : Nat) (bs : List Byte) : (p.hostWrite a bs).sizes = p.sizes := rfl
@[simp] theorem Part.hostStores_sizes (p : Part) (cs : List Host.Cell) : (p.hostStores cs).sizes = p.sizes := rfl
@[simp] theorem complete_sizes (p : Part) (r : Request) (c : Code) (x y : Option (List Byte)) :
    (complete p r c x y).sizes = p.sizes := rfl
@[simp] theorem handOver_sizes (p : Part) : (handOver p).sizes = p.sizes := rfl
@[simp] theorem push_sizes (ops : List CuOp) (p : Part) : (push ops p).sizes = p.sizes := rfl
@[simp] theorem onlyDo_sizes (ops : List CuOp) (p : Part) : (onlyDo ops p).sizes = p.sizes := rfl
@[simp] theorem issue_sizes (op : BankOp) (w : CuAwait) (p : Part) : (issue op w p).sizes = p.sizes := rfl
@[simp] theorem finishWith_sizes (c : Code) (items : List (Nat × List Byte)) (p : Part) :
    (finishWith c items p).sizes = p.sizes := rfl
@[simp] theorem fail_sizes (c : Code) (p : Part) : (fail c p).sizes = p.sizes := rfl
@[simp] theorem thenOk_sizes (items : List (Nat × List Byte)) (p : Part) : (thenOk items p).sizes = p.sizes := rfl
@[simp] theorem endJob_sizes (p : Part) : (endJob p).sizes = p.sizes := rfl
@[simp] theorem stayAtSource_sizes (u : Nat) (p : Part) : (stayAtSource u p).sizes = p.sizes := rfl
@[simp] theorem uncheck_sizes (p : Part) (which : Entry → Bool) : (uncheck p which).sizes = p.sizes := rfl

@[simp] theorem Part.withCat_sizes {p : Part} {f : CatUnit → CatUnit} (hf : ∀ c, (f c).queue = c.queue) :
    (p.withCat f).sizes = p.sizes := by simp [Part.sizes, hf]

@[simp] theorem Part.modifyStation_sizes (p : Part) (n : Nat) (f : Station → Station) :
    (p.modifyStation n f).sizes = p.sizes := by
  simp [Part.sizes, Part.modifyStation, modifyNth_length]

@[simp] theorem Part.modifyBundle_sizes (p : Part) (b : Nat) (f : Bundle → Bundle) : (p.modifyBundle b f).sizes = p.sizes := by
  simp [Part.sizes, Part.modifyBundle, modifyNth_length]

@[simp] theorem Part.setLane_sizes (p : Part) (l : Lane) (x : LaneRegs) : (p.setLane l x).sizes = p.sizes := by cases l <;> rfl

@[simp] theorem mapMarks_sizes (f : Mark → Mark) (p : Part) : (mapMarks f p).sizes = p.sizes := by simp [Part.sizes, mapMarks]

@[simp] theorem askScan_sizes (p : Part) : (askScan p).sizes = p.sizes := by unfold askScan; split <;> rfl

@[simp] theorem driveConform_sizes (p : Part) : (driveConform p).sizes = p.sizes := by
  unfold driveConform
  dsimp only
  split <;> rfl

/-- The stations judged are as many as there were (R91). -/
@[simp] theorem judgeStations_length (p : Part) : (judgeStations p).length = p.line.stations.length := by simp [judgeStations]

@[simp] theorem recompute_sizes (p : Part) : (recompute p).sizes = p.sizes := by
  unfold recompute
  dsimp only
  rw [handOver_sizes, driveConform_sizes]
  split <;> simp [Part.sizes]

@[simp] theorem settleStations_sizes (p : Part) : (settleStations p).sizes = p.sizes := by
  unfold settleStations
  rw [handOver_sizes, driveConform_sizes]
  simp [Part.sizes]

@[simp] theorem reclaimTest_sizes (p : Part) : (reclaimTest p).sizes = p.sizes := reclaimTest_frame _ p fun _ => rfl
@[simp] theorem freeTested_sizes (old p : Part) : (freeTested old p).sizes = p.sizes :=
  freeTested_frame _ p (fun _ => rfl) (fun _ => rfl) old
@[simp] theorem cuSettle_sizes (p : Part) : (cuSettle p).sizes = p.sizes := cuSettle_frame _ p (fun _ => rfl) (fun _ => rfl)

/-! ## The operations of the Catalogue Unit -/

@[simp] theorem waitBad_sizes (u : Nat) (p : Part) : (waitBad u p).sizes = p.sizes := rfl

@[simp] theorem snapRead_sizes (p : Part) (i : SnapItem) : (snapRead p i).sizes = p.sizes := by
  cases i with
  | start => simp [snapRead, Part.sizes]
  | station n => exact p.modifyStation_sizes n _
  | format | bad | ruleset | param | entry => rfl

@[simp] theorem readFor_sizes (p : Part) (w : Writer) : (readFor p w).sizes = p.sizes := by
  cases w with
  | stationMark n => exact p.modifyStation_sizes n _
  | stationDefine | stationUndefine =>
    simp only [readFor]
    split <;> simp
  | _ => rfl

@[simp] theorem fullFor_sizes (w : Writer) (p : Part) : (fullFor w p).sizes = p.sizes := by
  cases w with
  | stationMark n => exact p.modifyStation_sizes n _
  | snapshotPart => exact mapMarks_sizes _ _
  | _ => rfl

@[simp] theorem journalFull_sizes (w : Writer) (p : Part) : (journalFull w p).sizes = p.sizes := by simp [journalFull]

@[simp] theorem putSlot_sizes (again : Bool) (recs : List JournalRecord) (num : Nat) (w : Writer) (p : Part) :
    (putSlot again recs num w p).sizes = p.sizes := by
  unfold putSlot
  split <;> simp

@[simp] theorem putRecord_sizes (recs : List JournalRecord) (w : Writer) (p : Part) : (putRecord recs w p).sizes = p.sizes := by
  unfold putRecord
  split <;> simp

@[simp] theorem appendRecords_sizes (k : Option Nat) (again : Bool) (w : Writer) (p : Part) :
    (appendRecords k again w p).sizes = p.sizes := by
  unfold appendRecords
  repeat' split
  all_goals simp

@[simp] theorem putRuleSet_length (rules : List RuleSet) (n : Nat) (x : RuleSet) : (putRuleSet rules n x).length = rules.length :=
  modifyNth_length _ n rules

@[simp] theorem applyEnrol_sizes (p : Part) : (applyEnrol p).sizes = p.sizes := by
  unfold applyEnrol
  split
  · dsimp only
    split <;> rfl
  · rfl

@[simp] theorem applyCommit_sizes (f : Nat) (p : Part) : (applyCommit f p).sizes = p.sizes := by simp [applyCommit]

@[simp] theorem applyDiscard_sizes (k : Key) (p : Part) : (applyDiscard k p).sizes = p.sizes := by
  unfold applyDiscard
  split <;> rfl

@[simp] theorem applyRevert_sizes (k : Key) (p : Part) : (applyRevert k p).sizes = p.sizes := by
  unfold applyRevert
  split <;> simp

@[simp] theorem applyRetire_sizes (k : Key) (p : Part) : (applyRetire k p).sizes = p.sizes := by
  unfold applyRetire
  split
  · rfl
  · exact (recompute_sizes _).trans rfl

@[simp] theorem applyRuleLoad_sizes (p : Part) : (applyRuleLoad p).sizes = p.sizes := by
  unfold applyRuleLoad
  split
  · simp [Part.sizes, thenOk, push]
  · rfl

@[simp] theorem applyRuleDelete_sizes (n : Nat) (p : Part) : (applyRuleDelete n p).sizes = p.sizes := by
  simp [applyRuleDelete, Part.sizes, thenOk, push]

@[simp] theorem applyStation_sizes (f : Request → Station → Station) (p : Part) : (applyStation f p).sizes = p.sizes := by
  unfold applyStation
  split <;> simp

@[simp] theorem takeParams_sizes (p : Part) (ps : Params) : (takeParams p ps).sizes = p.sizes := (recompute_sizes _).trans rfl

@[simp] theorem applyParams_sizes (p : Part) : (applyParams p).sizes = p.sizes := by
  unfold applyParams
  split <;> simp

@[simp] theorem relocate_sizes (p : Part) (m : Move) : (relocate p m).sizes = p.sizes := by
  unfold relocate
  split
  · rfl
  · simp [Part.sizes]

/-- What follows a writer's complete records (R10). -/
@[simp] theorem written_sizes (w : Writer) (p : Part) : (written w p).sizes = p.sizes := by
  cases w with
  | formatMark => rfl
  | _ => simp [written]

@[simp] theorem snapshotClosed_sizes (p : Part) : (snapshotClosed p).sizes = p.sizes := by
  unfold snapshotClosed
  split <;> simp

@[simp] theorem snapshotItem_sizes (items : List SnapItem) (count : Nat) (p : Part) :
    (snapshotItem items count p).sizes = p.sizes := by
  unfold snapshotItem
  split <;> simp

@[simp] theorem eraseNext_sizes (us : List Nat) (why : EraseWhy) (p : Part) : (eraseNext us why p).sizes = p.sizes := by
  unfold eraseNext
  repeat' split
  all_goals rfl

@[simp] theorem flushBad_sizes (p : Part) : (flushBad p).sizes = p.sizes := by
  unfold flushBad
  split <;> rfl

@[simp] theorem placeImage_sizes (second afterInline : Bool) (p : Part) : (placeImage second afterInline p).sizes = p.sizes := by
  unfold placeImage
  repeat' split
  all_goals rfl

@[simp] theorem chooseUnit_sizes (why : MoveWhy) (eraseWhy : EraseWhy) (p : Part) :
    (chooseUnit why eraseWhy p).sizes = p.sizes := by
  unfold chooseUnit
  split
  · rfl
  · dsimp only
    repeat' split
    all_goals rfl

@[simp] theorem inlineTurn_sizes (p : Part) : (inlineTurn p).sizes = p.sizes := by
  unfold inlineTurn
  repeat' split
  all_goals simp

@[simp] theorem evacuate_sizes (unit page : Nat) (p : Part) : (evacuate unit page p).sizes = p.sizes := by
  unfold evacuate
  repeat' split
  all_goals rfl

@[simp] theorem moveUnplaced_sizes (ref : ImageRef) (second : Bool) (why : MoveWhy) (afterInline : Bool) (p : Part) :
    (moveUnplaced ref second why afterInline p).sizes = p.sizes := by
  unfold moveUnplaced
  repeat' split
  all_goals rfl

@[simp] theorem beginMove_sizes (ref : ImageRef) (second : Bool) (why : MoveWhy) (afterInline : Bool) (p : Part) :
    (beginMove ref second why afterInline p).sizes = p.sizes := by
  unfold beginMove
  repeat' split
  · rfl
  · rfl
  · exact (moveUnplaced_sizes ..).trans rfl

@[simp] theorem abandonMove_sizes (m : Move) (p : Part) : (abandonMove m p).sizes = p.sizes := by
  unfold abandonMove
  split <;> rfl

@[simp] theorem copyDone_sizes (m : Move) (p : Part) : (copyDone m p).sizes = p.sizes := by
  unfold copyDone
  split <;> simp

@[simp] theorem readBackFailed_sizes (e : Entry) (g : Generation) (p : Part) : (readBackFailed e g p).sizes = p.sizes := by
  unfold readBackFailed
  dsimp only
  split <;> rfl

@[simp] theorem readBackPage_sizes (page : Nat) (data : List Byte) (r : Request) (e : Entry) (g : Generation) (p : Part) :
    (readBackPage page data r e g p).sizes = p.sizes := by
  unfold readBackPage
  dsimp only
  repeat' split
  all_goals simp

@[simp] theorem readBackEnd_sizes (code : Code) (p : Part) : (readBackEnd code p).sizes = p.sizes := by
  unfold readBackEnd
  cases p.cat.pin <;> rfl

/-- An emptied catalogue has tables as long as before (R138). -/
theorem emptyCatalogue_sizes (p : Part) : (emptyCatalogue p).sizes = p.sizes := by simp [emptyCatalogue, Part.sizes]

@[simp] theorem formatEmpty_sizes (p : Part) : (formatEmpty p).sizes = p.sizes := by
  unfold formatEmpty
  split
  · rw [push_sizes, recompute_sizes]
    exact emptyCatalogue_sizes p
  · rw [finishWith_sizes, recompute_sizes]
    exact emptyCatalogue_sizes p

@[simp] theorem formatReady_sizes (p : Part) : (formatReady p).sizes = p.sizes := (recompute_sizes _).trans rfl

@[simp] theorem sweepOn_sizes (running : List Nat) (p : Part) : (sweepOn running p).sizes = p.sizes := by
  unfold sweepOn
  dsimp only
  split <;> rfl

@[simp] theorem mountReady_sizes (p : Part) : (mountReady p).sizes = p.sizes := by
  unfold mountReady
  rw [askScan_sizes, settleStations_sizes]
  rfl

/-! ## The unit's work -/

/-- Every operation of the Catalogue Unit leaves the sizes as they are. -/
@[simp] theorem workOp_sizes (op : CuOp) (p : Part) : (workOp op p).sizes = p.sizes := by
  cases op with
  | write recs w => cases recs <;> simp [workOp]
  | formatWrite => rfl
  | snapshot | moveGivenUp ref | readBack page | finish code result =>
    simp only [workOp]
    split <;> simp
  | _ => simp [workOp]

@[simp] theorem cuRun_sizes (n : Nat) (p : Part) : (cuRun n p).sizes = p.sizes :=
  cuRun_keeps (fun q => q.sizes = p.sizes) (fun op q hq => (workOp_sizes op q).trans hq) (fun _ _ hq => hq) (fun _ hq => hq)
    (fun q hq => (reclaimTest_sizes q).trans hq) (fun _ hq => hq) n p rfl

@[simp] theorem cuWork_sizes (p : Part) : (cuWork p).sizes = p.sizes := by simp [cuWork]

/-- An outcome that the unit takes leaves the sizes as they are when the act it brings about does. -/
theorem cuResume_sizes {p : Part} {f : Part → Part} (hf : ∀ q, (f q).sizes = q.sizes) : (cuResume p f).sizes = p.sizes := by
  simp [cuResume, hf]

theorem slotOutcome_sizes (u slot : Nat) (data : List Byte) (o : ProgOutcome) (recs : List JournalRecord) (num : Nat) (w : Writer)
    (p : Part) : (slotOutcome u slot data o recs num w p).sizes = p.sizes := by
  cases o <;> simp [slotOutcome]

theorem ringOutcome_sizes (u : Nat) (o : EraseOutcome) (recs : List JournalRecord) (num : Nat) (w : Writer) (again : Bool)
    (p : Part) : (ringOutcome u o recs num w again p).sizes = p.sizes := by
  cases o with
  | done => simp [ringOutcome]
  | failed erased =>
    simp only [ringOutcome]
    split <;> simp

theorem eraseOutcome_sizes (u : Nat) (o : EraseOutcome) (rest : List Nat) (why : EraseWhy) (p : Part) :
    (eraseOutcome u o rest why p).sizes = p.sizes := by
  cases o with
  | done => rfl
  | failed erased =>
    simp only [eraseOutcome]
    split <;> rfl

theorem sweepOutcome_sizes (u : Nat) (o : EraseOutcome) (running : List Nat) (p : Part) :
    (sweepOutcome u o running p).sizes = p.sizes := by
  unfold sweepOutcome
  cases o <;>
  · dsimp only
    repeat' split
    all_goals simp

theorem programOutcome_sizes (unit page : Nat) (data : List Byte) (o : ProgOutcome) (run : PageRun) (i : Nat) (second : Bool)
    (p : Part) : (programOutcome unit page data o run i second p).sizes = p.sizes := by
  cases o with
  | done =>
    simp only [programOutcome]
    split <;> rfl
  | failed left => rfl

theorem moveProgramOutcome_sizes (unit page : Nat) (data : List Byte) (o : ProgOutcome) (m : Move) (i : Nat) (p : Part) :
    (moveProgramOutcome unit page data o m i p).sizes = p.sizes := by
  cases o with
  | done =>
    simp only [moveProgramOutcome]
    split <;> simp
  | failed left => rfl

theorem moveReadOutcome_sizes (unit page errors : Nat) (m : Move) (i : Nat) (p : Part) :
    (moveReadOutcome unit page errors m i p).sizes = p.sizes := by
  unfold moveReadOutcome
  split
  · rfl
  · simp

theorem readBackOutcome_sizes (unit page errors i : Nat) (p : Part) : (readBackOutcome unit page errors i p).sizes = p.sizes := by
  unfold readBackOutcome
  dsimp only
  repeat' split
  all_goals simp

@[simp] theorem cuReadDone_sizes (unit page errors : Nat) (p : Part) : (cuReadDone unit page errors p).sizes = p.sizes := by
  unfold cuReadDone
  split
  · exact cuResume_sizes fun _ => moveReadOutcome_sizes ..
  · exact cuResume_sizes fun _ => readBackOutcome_sizes ..
  · rfl

@[simp] theorem cuProgramDone_sizes (unit page : Nat) (data : List Byte) (o : ProgOutcome) (p : Part) :
    (cuProgramDone unit page data o p).sizes = p.sizes := by
  unfold cuProgramDone
  split
  · exact cuResume_sizes fun _ => programOutcome_sizes ..
  · exact cuResume_sizes fun _ => moveProgramOutcome_sizes ..
  · rfl

@[simp] theorem cuSlotDone_sizes (unit slot : Nat) (data : List Byte) (o : ProgOutcome) (p : Part) :
    (cuSlotDone unit slot data o p).sizes = p.sizes := by
  unfold cuSlotDone
  split
  · exact cuResume_sizes fun _ => slotOutcome_sizes ..
  · rfl

@[simp] theorem cuEraseDone_sizes (unit : Nat) (o : EraseOutcome) (p : Part) : (cuEraseDone unit o p).sizes = p.sizes := by
  unfold cuEraseDone
  split
  · exact cuResume_sizes fun _ => ringOutcome_sizes ..
  · exact cuResume_sizes fun _ => eraseOutcome_sizes ..
  · exact cuResume_sizes fun _ => sweepOutcome_sizes ..
  · rfl

end Sys2Proof.Machine
end

section
/-! The sizes through the line, the lanes, the requests and the ends of the banks' operations. -/
namespace Sys2Proof.Machine

/-! ## The line -/

@[simp] theorem enterRunning_sizes (p : Part) : (enterRunning p).sizes = p.sizes := rfl

@[simp] theorem settlingTest_sizes (p : Part) : (settlingTest p).sizes = p.sizes := by
  unfold settlingTest
  repeat' split
  all_goals simp

@[simp] theorem afterRecording_sizes (p : Part) : (afterRecording p).sizes = p.sizes := by simp [afterRecording]

@[simp] theorem holdStation_sizes (p : Part) (n : Nat) (held : Bool) : (holdStation p n held).sizes = p.sizes :=
  p.modifyStation_sizes n _

@[simp] theorem openLine_sizes (p : Part) (G window : Nat) : (openLine p G window).sizes = p.sizes := by
  unfold openLine
  dsimp only
  rw [Part.raise_sizes, recompute_sizes]
  rfl

@[simp] theorem closeLine_sizes (p : Part) : (closeLine p).sizes = p.sizes := by
  unfold closeLine
  repeat' split
  · simp
  all_goals
    rw [Part.raise_sizes, recompute_sizes]
    rfl

@[simp] theorem abandonLine_sizes (p : Part) : (abandonLine p).sizes = p.sizes := by
  unfold abandonLine
  dsimp only
  rw [Part.raise_sizes, recompute_sizes]
  rfl

@[simp] theorem expireWindow_sizes (p : Part) : (expireWindow p).sizes = p.sizes := by simp [expireWindow]

@[simp] theorem restoreStation_sizes (p : Part) (n : Nat) : (restoreStation p n).sizes = p.sizes := by simp [restoreStation]

@[simp] theorem expireVerdict_sizes (p : Part) (k : Key) : (expireVerdict p k).sizes = p.sizes := by simp [expireVerdict]

/-- A line request leaves the sizes as they are (R78). -/
@[simp] theorem lineRequest_sizes (p : Part) (r : Request) : (lineRequest p r).sizes = p.sizes := by
  unfold lineRequest lineOpen lineClose lineAbandon lineHoldOut lineRestore completeLine
  dsimp only
  repeat' split
  all_goals simp

/-! ## The lanes -/

@[simp] theorem releasePin_sizes (p : Part) (l : Lane) : (releasePin p l).sizes = p.sizes := by
  unfold releasePin
  split <;> simp

@[simp] theorem checkNotice_sizes (p : Part) (n : Notice) : (checkNotice p n).1.sizes = p.sizes := by
  unfold checkNotice
  repeat' split
  all_goals simp [recordVerdict]

@[simp] theorem admitNotice_sizes (p : Part) (n : Notice) : (admitNotice p n).1.sizes = p.sizes := by
  unfold admitNotice
  dsimp only
  split <;> simp [recordOverride]

@[simp] theorem closeLane_sizes (p : Part) (l : Lane) (n : Notice) (sum : Summary) : (closeLane p l n sum).sizes = p.sizes := by
  unfold closeLane endLane
  split <;> simp

@[simp] theorem captureFails_sizes (p : Part) (l : Lane) : (captureFails p l).sizes = p.sizes := by
  unfold captureFails
  dsimp only
  split <;> simp

@[simp] theorem openLane_sizes (p : Part) (l : Lane) (r : Request) : (openLane p l r).sizes = p.sizes := by
  unfold openLane answerEarly endLane endAtOpening setUpLane
  repeat' split
  all_goals simp

@[simp] theorem askPage_sizes (p : Part) (l : Lane) (g : Generation) (page : Nat) : (askPage p l g page).sizes = p.sizes := rfl

@[simp] theorem captureDone_sizes (p : Part) (l : Lane) (host : List Host.Cell) : (captureDone p l host).sizes = p.sizes := by
  unfold captureDone
  dsimp only
  repeat' split
  all_goals simp

@[simp] theorem integrityFails_sizes (p : Part) (l : Lane) (x : LaneRegs) (r : Request) (s : LaneSetup) (c : Nat) :
    (integrityFails p l x r s c).sizes = p.sizes := by
  obtain ⟨es, h⟩ := reportAtOnce_frame { uid := s.entry, number := s.gen.number } p
  unfold integrityFails
  rw [closeLane_sizes, Part.raise_sizes, h]
  rfl

@[simp] theorem comparisonDone_sizes (p : Part) (l : Lane) (x : LaneRegs) (r : Request) (s : LaneSetup) (base : List Byte) :
    (comparisonDone p l x r s base).sizes = p.sizes := by
  unfold comparisonDone
  dsimp only
  split <;> simp

@[simp] theorem laneReadDone_sizes (l : Lane) (unit page errors : Nat) (p : Part) :
    (laneReadDone l unit page errors p).sizes = p.sizes := by
  unfold laneReadDone
  dsimp only
  repeat' split
  all_goals simp

/-! ## The catalogue requests -/

theorem ite_sizes {c : Prop} [Decidable c] {p q : Part} (hq : q.sizes = p.sizes) : (if c then q else p).sizes = p.sizes := by
  split
  · exact hq
  · rfl

theorem whenPassed_sizes (c : Option Code) {p : Part} {go : Part → Part} (hgo : ∀ q, (go q).sizes = q.sizes) :
    (whenPassed c p go).sizes = p.sizes := by
  cases c with
  | none => exact hgo p
  | some c => rfl

@[simp] theorem awaitHost_sizes (p : Part) : (awaitHost p).sizes = p.sizes := rfl

theorem beginEnrol_sizes (r : Request) (p : Part) : (beginEnrol r p).sizes = p.sizes := whenPassed_sizes _ fun _ => rfl

theorem beginCommit_sizes (r : Request) (p : Part) : (beginCommit r p).sizes = p.sizes := by
  refine whenPassed_sizes _ fun q => ?_
  dsimp only
  split <;> rfl

theorem beginDiscard_sizes (r : Request) (p : Part) : (beginDiscard r p).sizes = p.sizes := whenPassed_sizes _ fun _ => rfl

theorem beginRevert_sizes (r : Request) (p : Part) : (beginRevert r p).sizes = p.sizes := whenPassed_sizes _ fun _ => rfl

theorem beginRetire_sizes (r : Request) (p : Part) : (beginRetire r p).sizes = p.sizes := whenPassed_sizes _ fun _ => rfl

theorem beginReadBaseline_sizes (r : Request) (p : Part) : (beginReadBaseline r p).sizes = p.sizes := by
  refine whenPassed_sizes _ fun q => ?_
  repeat' split
  all_goals rfl

@[simp] theorem writeListing_sizes (r : Request) (i : Nat) (out : List Entry) (p : Part) :
    (writeListing p r i out).1.sizes = p.sizes := by
  induction out generalizing p i with
  | nil => rfl
  | cons e out ih =>
    unfold writeListing
    dsimp only
    split
    · rw [ih, Part.hostWrite_sizes]
    · rfl

theorem goOnListing_sizes (upTo : Option Nat) (i : Nat) (r : Request) (p : Part) : (goOnListing upTo i r p).sizes = p.sizes := by
  unfold goOnListing
  dsimp only
  repeat' split
  all_goals simp [listFails]

theorem beginList_sizes (upTo : Option Nat) (r : Request) (p : Part) : (beginList upTo r p).sizes = p.sizes :=
  whenPassed_sizes _ fun _ => goOnListing_sizes ..

theorem beginClearPeaks_sizes (r : Request) (p : Part) : (beginClearPeaks r p).sizes = p.sizes := whenPassed_sizes _ fun _ => rfl

theorem beginRuleLoad_sizes (r : Request) (p : Part) : (beginRuleLoad r p).sizes = p.sizes := by
  refine whenPassed_sizes _ fun q => ?_
  dsimp only
  split <;> rfl

theorem beginRuleDelete_sizes (r : Request) (p : Part) : (beginRuleDelete r p).sizes = p.sizes := whenPassed_sizes _ fun _ => rfl

theorem beginDefine_sizes (r : Request) (p : Part) : (beginDefine r p).sizes = p.sizes := whenPassed_sizes _ fun _ => rfl

theorem beginUndefine_sizes (r : Request) (p : Part) : (beginUndefine r p).sizes = p.sizes := whenPassed_sizes _ fun _ => rfl

theorem beginParamSet_sizes (r : Request) (p : Part) : (beginParamSet r p).sizes = p.sizes := whenPassed_sizes _ fun _ => rfl

@[simp] theorem enterFormatting_sizes (p : Part) : (enterFormatting p).sizes = p.sizes := by
  unfold enterFormatting
  dsimp only
  rw [recompute_sizes, Part.withStore_sizes]
  split <;> rfl

theorem beginFormat_sizes (r : Request) (p : Part) : (beginFormat r p).sizes = p.sizes := by
  unfold beginFormat
  split <;> simp

theorem enrolRead_sizes (r : Request) (image : List Byte) (p : Part) : (enrolRead r image p).sizes = p.sizes := by
  unfold enrolRead
  dsimp only
  split <;> rfl

theorem rulesRead_sizes (r : Request) (array : List Byte) (p : Part) : (rulesRead r array p).sizes = p.sizes := by
  unfold rulesRead
  dsimp only
  split <;> rfl

@[simp] theorem hostReadDone_sizes (host : List Host.Cell) (p : Part) : (hostReadDone host p).sizes = p.sizes := by
  unfold hostReadDone
  split
  · refine ite_sizes (cuResume_sizes fun q => ?_)
    dsimp only
    repeat' split
    · exact (rulesRead_sizes ..).trans rfl
    · exact (enrolRead_sizes ..).trans rfl
    · rfl
  · rfl

@[simp] theorem catalogueBufferFails_sizes (p : Part) : (catalogueBufferFails p).sizes = p.sizes := by
  unfold catalogueBufferFails
  repeat' split
  · exact cuResume_sizes fun _ => rfl
  · exact cuResume_sizes fun _ => rfl
  all_goals rfl

@[simp] theorem beginOwn_sizes (p : Part) (turn : Turn) (work : CuWork) (ops : List CuOp) :
    (beginOwn p turn work ops).sizes = p.sizes := by
  unfold beginOwn
  split <;> simp

@[simp] theorem takeReport_sizes (p : Part) : (takeReport p).sizes = p.sizes := by
  unfold takeReport
  repeat' split
  all_goals rfl

/-! ## The ends of bank operations -/

@[simp] theorem finishHead_sizes (p : Part) (b : Bank) : (finishHead p b).sizes = p.sizes := rfl

@[simp] theorem endPageRead_sizes (b : Bank) (errors : Nat) (p : Part) : (endPageRead b errors p).sizes = p.sizes := by
  unfold endPageRead
  repeat' split
  all_goals simp

@[simp] theorem endPageProgram_sizes (b : Bank) (o : ProgOutcome) (p : Part) : (endPageProgram b o p).sizes = p.sizes := by
  unfold endPageProgram
  repeat' split
  all_goals simp

@[simp] theorem endSlotProgram_sizes (b : Bank) (o : ProgOutcome) (p : Part) : (endSlotProgram b o p).sizes = p.sizes := by
  unfold endSlotProgram
  repeat' split
  all_goals simp

@[simp] theorem endErase_sizes (b : Bank) (o : EraseOutcome) (p : Part) : (endErase b o p).sizes = p.sizes := by
  unfold endErase
  repeat' split
  all_goals simp

/-! ## The key switch and time -/

theorem changeKeysw_sizes (level : Bool) (p : Part) : (changeKeysw level p).sizes = p.sizes := by
  unfold changeKeysw
  dsimp only
  repeat' split
  all_goals rfl

theorem debounceExpires_sizes (p : Part) : (debounceExpires p).sizes = p.sizes := by
  unfold debounceExpires
  dsimp only
  repeat' split
  all_goals rfl

theorem secondPasses_sizes (p : Part) : (secondPasses p).sizes = p.sizes := by
  unfold secondPasses
  split <;> rfl

theorem windowExpires_sizes (p : Part) : (windowExpires p).sizes = p.sizes := by
  unfold windowExpires
  repeat' split
  all_goals simp

theorem verdictExpires_sizes (k : Key) (p : Part) : (verdictExpires k p).sizes = p.sizes := by
  unfold verdictExpires
  split <;> simp

theorem scanTimerExpires_sizes (p : Part) : (scanTimerExpires p).sizes = p.sizes := by
  unfold scanTimerExpires
  split
  · exact (askScan_sizes _).trans rfl
  · rfl

end Sys2Proof.Machine
end

section
/-! The sizes stay legal through the port, where queues fill and empty and the registers are written, and through mount and
RESET#. -/
namespace Sys2Proof.Machine

/-! ## The queues and the registers -/

section
variable {c k : Nat} {p : Part}

/-- A part whose queues are no longer, and whose other sizes are the same, is as legal. -/
theorem Part.Legal.of_shorter {q : Part} (h : p.Legal c k) (hc : q.engine.queue.length ≤ p.engine.queue.length)
    (hk : q.cat.queue.length ≤ p.cat.queue.length)
    (hq : q.sizes = { p.sizes with checks := q.engine.queue.length, requests := q.cat.queue.length }) : q.Legal c k := by
  simp only [Part.sizes, Sizes.mk.injEq, true_and] at hq
  obtain ⟨hs, hr, hn, hb, hcount⟩ := hq
  exact ⟨Nat.le_trans hc h.checks, Nat.le_trans hk h.requests, hs.trans h.stations, hr.trans h.sets, hn.trans h.bundles, hb ▸ h.base,
    hcount ▸ h.least, hcount ▸ h.most⟩

/-- RESET# leaves empty queues and the tables of a part after RESET# (R161). -/
theorem resetPart_legal (torn : TornOps) (p : Part) : (resetPart torn p).Legal c k := by
  constructor <;> simp [resetPart, Part.reset, Engine.reset, CatUnit.reset, Line.reset, Port.reset]

theorem discardQueues_legal (h : p.Legal c k) : (discardQueues p).Legal c k :=
  h.of_shorter (Nat.zero_le _) (Nat.zero_le _) rfl

theorem exchangeFault_legal (h : p.Legal c k) : (exchangeFault p).Legal c k := discardQueues_legal (h.of_sizes rfl)

theorem takeDisable_legal (interval : Nat) (h : p.Legal c k) : (takeDisable interval p).Legal c k :=
  discardQueues_legal (h.of_sizes rfl)

@[simp] theorem noteAsk_sizes (e : Option BusEvent) (p : Part) : (noteAsk e p).sizes = p.sizes := by
  unfold noteAsk
  split <;> simp

@[simp] theorem advanceCursor_sizes (p : Part) : (advanceCursor p).sizes = p.sizes := by
  unfold advanceCursor
  split
  · rfl
  · exact p.modifyBundle_sizes _ _

@[simp] theorem wipeDone_sizes (b : Nat) (p : Part) : (wipeDone b p).sizes = p.sizes := by
  unfold wipeDone
  dsimp only
  split <;> simp

@[simp] theorem completionCounted_sizes (x : Completion) (p : Part) : (completionCounted x p).sizes = p.sizes := by
  have hcount : (handOver { p.modifyBundle x.bundle (fun y => { y with done := y.done + 1 }) with
      port := { (p.modifyBundle x.bundle fun y => { y with done := y.done + 1 }).port with
        completed := satAdd p.port.completed 1 } }).sizes = p.sizes := p.modifyBundle_sizes _ _
  unfold completionCounted
  dsimp only
  split <;> exact hcount

/-- A request joins its queue where there was room for it (R8, R62). -/
theorem giveToOwner_legal {r : Request} (h : p.Legal 12 4) (hc : r.kind.owner = .checkQueue → p.Legal 11 4)
    (hk : r.kind.owner = .catalogueQueue → p.Legal 12 3) : (giveToOwner p r).Legal 12 4 := by
  unfold giveToOwner
  split
  · rename_i howner
    have hchecks : (p.engine.queue ++ [r]).length ≤ 12 := by
      rw [List.length_append]
      exact Nat.succ_le_succ (hc howner).checks
    exact { h with checks := hchecks }
  · rename_i howner
    have hrequests : (p.cat.queue ++ [r]).length ≤ 4 := by
      rw [List.length_append]
      exact Nat.succ_le_succ (hk howner).requests
    exact { h with requests := hrequests }
  · exact h.of_sizes (lineRequest_sizes p r)

theorem takeAct_legal (sheet : List Byte) {kind : Kind} (h : p.Legal 12 4) (hc : kind.owner = .checkQueue → p.Legal 11 4)
    (hk : kind.owner = .catalogueQueue → p.Legal 12 3) : (takeAct sheet kind p).Legal 12 4 :=
  giveToOwner_legal (h.of_sizes (advanceCursor_sizes p)) (fun ho => (hc ho).of_sizes (advanceCursor_sizes p))
    fun ho => (hk ho).of_sizes (advanceCursor_sizes p)

/-- The room that a sheet's owner has, in numbers. -/
theorem legal_of_room {o : Owner} (h : p.Legal 12 4) (hroom : ownerHasRoom p o = true) :
    (o = .checkQueue → p.Legal 11 4) ∧ (o = .catalogueQueue → p.Legal 12 3) := by
  constructor <;> rintro rfl
  · exact { h with checks := Nat.le_of_lt_succ (of_decide_eq_true hroom) }
  · exact { h with requests := Nat.le_of_lt_succ (of_decide_eq_true hroom) }

end

/-! ## The transfers -/

section
variable {c k : Nat} {b : Bus}

theorem busLegal_heed (h : b.part.Legal c k) : b.heed.part.Legal c k := by
  unfold Bus.heed
  split
  · exact takeDisable_legal _ h
  · exact h

theorem busLegal_settle (h : b.part.Legal c k) : b.settle.part.Legal c k := h.of_sizes (by simp [Bus.settle])

/-- A transfer that is over may have ended with RESET#, a disable or a halt: the queues are then empty. -/
theorem busLegal_over (e : Option BusEvent) (went : Bool) (h : b.part.Legal c k) : (b.over e went).part.Legal c k := by
  unfold Bus.over
  repeat' split
  · exact resetPart_legal _ _
  · exact takeDisable_legal _ h
  · exact h
  · exact takeDisable_legal _ (exchangeFault_legal h)
  · exact h
  · exact exchangeFault_legal h
  · exact h
  · exact exchangeFault_legal h

/-- Before a transfer a disable that waits is taken. -/
theorem busLegal_heeded (h : b.part.Legal c k) : (if b.up then b.heed else b).part.Legal c k := by
  split
  · exact busLegal_heed h
  · exact h

theorem busLegal_read (a n : Nat) (h : b.part.Legal c k) : (b.read a n).2.part.Legal c k := by
  have hb := busLegal_heeded h
  unfold Bus.read
  dsimp only
  generalize (if b.up = true then b.heed else b) = d at hb ⊢
  split
  · exact busLegal_over _ _ (busLegal_settle hb)
  · exact hb

theorem foldl_hostWrite_sizes (pieces : List (Nat × List Byte)) (p : Part) :
    (pieces.foldl (fun q x => q.hostWrite x.1 x.2) p).sizes = p.sizes := by
  induction pieces generalizing p with
  | nil => rfl
  | cons x xs ih => rw [List.foldl_cons, ih, Part.hostWrite_sizes]

theorem busLegal_write (pieces : List (Nat × List Byte)) (h : b.part.Legal c k) : (b.write pieces).part.Legal c k := by
  have hb := busLegal_heeded h
  unfold Bus.write
  dsimp only
  generalize (if b.up = true then b.heed else b) = d at hb ⊢
  split
  · refine busLegal_over _ _ ?_
    split
    · exact (busLegal_settle hb).of_sizes (foldl_hostWrite_sizes _ _)
    · exact busLegal_settle hb
  · exact hb

theorem busLegal_act {f : Part → Part} (hf : ∀ p, p.Legal c k → (f p).Legal c k) (h : b.part.Legal c k) :
    (b.act f).part.Legal c k := by
  unfold Bus.act
  split
  · exact hf _ h
  · exact h

theorem busLegal_writeItems (items : List StatusItem) (h : b.part.Legal c k) : (b.writeItems items).part.Legal c k :=
  busLegal_write _ (busLegal_act (fun _ hp => hp.of_sizes rfl) (busLegal_write _ h))

theorem busLegal_flushStatus (h : b.part.Legal c k) : b.flushStatus.part.Legal c k := by
  unfold Bus.flushStatus
  split
  · exact busLegal_writeItems _ h
  · exact h

theorem busLegal_readEach (as : List Nat) (h : b.part.Legal c k) : (b.readEach as).2.part.Legal c k := by
  induction as generalizing b with
  | nil => exact h
  | cons a as ih => exact ih (busLegal_read a 1 h)

theorem busLegal_foldl {α : Type} {f : Bus → α → Bus} (hf : ∀ d x, d.part.Legal c k → (f d x).part.Legal c k) (xs : List α)
    (h : b.part.Legal c k) : (xs.foldl f b).part.Legal c k := by
  induction xs generalizing b with
  | nil => exact h
  | cons x xs ih => exact ih (hf b x h)

theorem busLegal_wipeCheck (bundle : Nat) (h : b.part.Legal c k) : (b.wipeCheck bundle).part.Legal c k := by
  unfold Bus.wipeCheck
  split
  · have hr := busLegal_readEach (sheetNumbers.map (b.part.port.sheetAddress bundle)) h
    dsimp only
    split
    · exact busLegal_act (fun _ hp => hp.of_sizes (by simp)) (busLegal_foldl (fun _ _ hd => busLegal_write _ hd) _ hr)
    · exact hr
  · exact h

/-! ## Completions -/

theorem busLegal_writeCompletion (x : Completion) {also : Part → Part} (ha : ∀ p, (also p).sizes = p.sizes)
    (h : b.part.Legal c k) : (b.writeCompletion x also).part.Legal c k := by
  have hcounted : ∀ p : Part, p.Legal c k → (also (completionCounted x p)).Legal c k := fun p hp => hp.of_sizes (by simp [ha])
  unfold Bus.writeCompletion
  split
  · refine busLegal_wipeCheck _ (busLegal_act hcounted (busLegal_write _ (busLegal_write _ ?_)))
    have hf := busLegal_flushStatus h
    cases x.result with
    | none =>
      cases x.findings with
      | none => exact hf
      | some f => exact busLegal_write _ hf
    | some r =>
      cases x.findings with
      | none => exact busLegal_write _ hf
      | some f => exact busLegal_write _ (busLegal_write _ hf)
  · exact h

theorem busLegal_nextCompletion (h : b.part.Legal c k) : b.nextCompletion.part.Legal c k := by
  unfold Bus.nextCompletion
  split
  · exact h
  · exact busLegal_writeCompletion _ (fun _ => rfl) (h.of_sizes rfl)

theorem busLegal_drain (n : Nat) (h : b.part.Legal c k) : (Bus.drain n b).part.Legal c k := by
  induction n generalizing b with
  | zero => exact h
  | succ n ih =>
    unfold Bus.drain
    split
    · exact ih (busLegal_nextCompletion h)
    · exact h

theorem busLegal_answer (code : Code) (quiet : Bool) (h : b.part.Legal c k) : (b.answer code quiet).part.Legal c k :=
  busLegal_writeCompletion _ advanceCursor_sizes (busLegal_drain _ h)

end

/-! ## The scan -/

section
variable {b : Bus}

/-- A sheet is taken only where its owner has room, and the write of TAKEN adds to no queue (R146). -/
theorem busLegal_posted (sheet : List Byte) (h : b.part.Legal 12 4) : (b.posted sheet).1.part.Legal 12 4 := by
  unfold Bus.posted
  split
  · exact busLegal_answer _ _ h
  · split
    · rename_i kind _ hroom
      obtain ⟨hc, hk⟩ := legal_of_room h hroom
      unfold Bus.act
      dsimp only
      split
      · exact takeAct_legal sheet (busLegal_write _ h) (fun ho => busLegal_write _ (hc ho)) fun ho => busLegal_write _ (hk ho)
      · exact busLegal_write _ h
    · exact busLegal_act (fun _ hp => hp.of_sizes rfl) h

theorem busLegal_unposted (state : List Byte) (h : b.part.Legal 12 4) : (b.unposted state).1.part.Legal 12 4 := by
  unfold Bus.unposted
  split
  · exact busLegal_act (fun _ hp => hp.of_sizes rfl) h
  · exact busLegal_answer _ _ h

theorem busLegal_sheet (h : b.part.Legal 12 4) : b.sheet.1.part.Legal 12 4 := by
  have hstate := busLegal_read (b.part.port.sheetAddress b.part.port.cursorB b.part.port.cursorS) 1 h
  have hcopy := busLegal_read (b.part.port.sheetAddress b.part.port.cursorB b.part.port.cursorS) 256 hstate
  unfold Bus.sheet
  dsimp only
  repeat' split
  · exact busLegal_posted _ hcopy
  · exact busLegal_unposted _ hcopy
  · exact hcopy
  · exact busLegal_unposted _ hstate
  · exact hstate

theorem busLegal_sheets (n : Nat) (h : b.part.Legal 12 4) : (Bus.sheets n b).part.Legal 12 4 := by
  induction n generalizing b with
  | zero => exact h
  | succ n ih =>
    unfold Bus.sheets
    dsimp only
    repeat' split
    · exact ih (busLegal_sheet h)
    · exact busLegal_sheet h
    · exact busLegal_act (fun _ hp => hp.of_sizes rfl) h
    · exact h

theorem busLegal_scanOnce (h : b.part.Legal 12 4) : b.scanOnce.part.Legal 12 4 :=
  busLegal_sheets _ (busLegal_foldl (fun _ _ hd => busLegal_wipeCheck _ hd) _ h)

theorem busLegal_scans (n : Nat) (h : b.part.Legal 12 4) : (Bus.scans n b).part.Legal 12 4 := by
  induction n generalizing b with
  | zero => exact h
  | succ n ih =>
    unfold Bus.scans
    split
    · exact ih (busLegal_scanOnce (h.of_sizes rfl))
    · exact h

end

/-! ## The acts of the port -/

section
variable {p : Part}

theorem ite_legal {x : Prop} [Decidable x] {q : Part} (hq : p.Legal 12 4 → q.Legal 12 4) (h : p.Legal 12 4) :
    (if x then q else p).Legal 12 4 := by
  split
  · exact hq h
  · exact h

theorem makeScan_legal (io : List Xfer) (h : p.Legal 12 4) : (makeScan p io).Legal 12 4 :=
  ite_legal (fun h => busLegal_heed (busLegal_scans (b := Bus.start p io) _ h)) h

theorem takeLineSheet_legal (kind : Kind) (head : SheetHead) (params : List (Nat × List Byte)) (h : p.Legal 12 4) :
    (takeLineSheet p kind head params).Legal 12 4 :=
  ite_legal (fun h => busLegal_heed (busLegal_posted (b := Bus.start (p.hostWrite _ _) []) _ (h.of_sizes rfl))) h

theorem writeOldestCompletion_legal (io : List Xfer) (h : p.Legal 12 4) : (writeOldestCompletion p io).Legal 12 4 :=
  ite_legal (fun h => busLegal_heed (busLegal_nextCompletion (b := Bus.start p io) h)) h

theorem writeStatus_legal (io : List Xfer) (h : p.Legal 12 4) : (writeStatus p io).Legal 12 4 :=
  ite_legal (fun h => busLegal_heed (busLegal_flushStatus (b := Bus.start p io) h)) h

/-- A new enablement keeps as many bundles (R143). -/
theorem beginEnablement_sizes (p : Part) : (beginEnablement p).sizes = p.sizes := by simp [beginEnablement, Part.sizes]

theorem enablePort_legal (io : List Xfer) (h : p.Legal 12 4) : (enablePort p io).Legal 12 4 :=
  busLegal_heed (busLegal_act (fun _ hp => hp.of_sizes ((askScan_sizes _).trans rfl))
    (busLegal_writeItems (b := Bus.start (handOver (beginEnablement p)) io) _ (h.of_sizes (beginEnablement_sizes p))))

/-- The bundle count taken lies in 4 to 64 (R140). -/
theorem takenCount_range (v : Nat) : 4 ≤ takenCount v ∧ takenCount v ≤ 64 := by
  unfold takenCount clampTo
  repeat' split
  all_goals omega

theorem writeExctl_legal (v : Reg) (io : List Xfer) (h : p.Legal 12 4) : (writeExctl p v io).Legal 12 4 := by
  unfold writeExctl
  dsimp only
  split
  · obtain ⟨hleast, hmost⟩ := takenCount_range ((v.toNat / 2 ^ 8) % 128)
    have hcount : Part.Legal 12 4 { p with port := { p.port with
        interval := (v.toNat / 2 ^ 16) % 256, count := takenCount ((v.toNat / 2 ^ 8) % 128) } } :=
      ⟨h.checks, h.requests, h.stations, h.sets, h.bundles, h.base, hleast, hmost⟩
    split
    · exact enablePort_legal io hcount
    · exact hcount
  · repeat' split
    · exact h.of_sizes rfl
    · exact h.of_sizes rfl
    · exact takeDisable_legal _ h

/-- The low 12 bits of EXBASE_LO are discarded (R140). -/
theorem writeExbase_legal (high : Bool) (v : Reg) (h : p.Legal 12 4) : (writeExbase p high v).Legal 12 4 := by
  have hlow : v &&& 0xFFFFF000#32 &&& 0xFFF#32 = 0#32 := by rw [BitVec.and_assoc]; simp
  unfold writeExbase
  repeat' split
  · exact h.of_sizes rfl
  · exact ⟨h.checks, h.requests, h.stations, h.sets, h.bundles, hlow, h.least, h.most⟩
  · exact h

theorem writeRegister_legal (w : RegWrite) (io : List Xfer) (h : p.Legal 12 4) : (writeRegister p w io).Legal 12 4 := by
  refine ite_legal (fun h => ?_) h
  split
  · exact writeExbase_legal _ _ h
  · exact writeExbase_legal _ _ h
  · exact writeExctl_legal _ _ h
  · exact h.of_sizes (askScan_sizes p)
  all_goals exact h.of_sizes rfl

/-! ## The heads of the queues -/

theorem takeHead_legal {r : Request} {rest : List Request} (hq : p.cat.queue = r :: rest) (h : p.Legal 12 4) :
    (takeHead p r rest).Legal 12 4 := by
  have hshorter : (p.withCat fun c => { c with
      queue := rest, work := .request, req := some r, todo := [], beginFirst := false, dropped := 0, ceased := 0 }).Legal 12 4 :=
    h.of_shorter (Nat.le_refl _) (by simp [hq]) rfl
  exact hshorter.of_sizes (askScan_sizes _)

/-- A request begun leaves its queue (R8). -/
theorem beginHead_legal (wanted : Request → Bool) {go : Request → Part → Part} (hgo : ∀ r q, (go r q).sizes = q.sizes)
    (h : p.Legal 12 4) : (beginHead p wanted go).Legal 12 4 := by
  unfold beginHead
  split
  · exact h
  · rename_i r rest hq
    exact ite_legal (fun h => (takeHead_legal hq h).of_sizes ((cuWork_sizes _).trans (whenPassed_sizes _ (hgo r)))) h

theorem carryOnList_legal (upTo : Option Nat) (h : p.Legal 12 4) : (carryOnList upTo p).Legal 12 4 := by
  unfold carryOnList
  split
  · exact ite_legal (fun h => h.of_sizes (cuResume_sizes fun _ => goOnListing_sizes ..)) h
  · exact beginHead_legal _ (fun r _ => beginList_sizes upTo r _) h

/-- A CHECK or an ADMIT taken leaves its queue (R62, R63). -/
theorem takeCheck_legal (kind : Kind) (h : p.Legal 12 4) : (takeCheck p kind).Legal 12 4 := by
  unfold takeCheck
  split
  · rename_i r rest l hq _
    have hshorter : Part.Legal 12 4 { p with engine := { p.engine with queue := rest } } :=
      h.of_shorter (by simp [hq]) (Nat.le_refl _) rfl
    exact ite_legal (fun _ => hshorter.of_sizes (by simp)) h
  · exact h

end

/-! ## Mount and RESET# -/

/-- The tables being rebuilt have their full lengths (R23, R86). -/
def Replay.Whole (x : Replay) : Prop := x.sets.length = 64 ∧ x.stations.length = 16

section
variable {x : Replay}

theorem Replay.whole_apply (r : JournalRecord) (h : x.Whole) : (x.apply r).Whole := by
  cases r with
  | ruleset | rulesetGone => exact ⟨(modifyNth_length ..).trans h.1, h.2⟩
  | station => exact ⟨h.1, (modifyNth_length ..).trans h.2⟩
  | _ => exact h

theorem Replay.whole_putEntries (held : List EntryImage) (h : x.Whole) : (held.foldl Replay.putEntry x).Whole := by
  induction held generalizing x with
  | nil => exact h
  | cons e es ih => exact ih (x := x.putEntry e) h

theorem Replay.whole_meet (r : JournalRecord) (h : x.Whole) : (x.meet r).Whole := by
  have hclosed : ({ x with group := none } : Replay).Whole := h
  unfold Replay.meet
  repeat' split
  · exact whole_apply _ h
  · exact h
  · exact whole_apply _ hclosed
  · exact whole_putEntries _ hclosed
  · exact hclosed
  · exact whole_apply _ hclosed

theorem replayFrom_whole (vs : List ValidSlot) (h fuel n : Nat) (hx : x.Whole) : (replayFrom vs h fuel n x).1.Whole := by
  induction fuel generalizing n x with
  | zero => exact hx
  | succ fuel ih =>
    unfold replayFrom
    repeat' split
    · exact ih _ (Replay.whole_meet _ hx)
    · exact hx
    · exact hx

end

section
variable {p : Part}

theorem rebuild_legal (env : MountEnv) (R : Nat) {x : Replay} (hx : x.Whole) (h : p.Legal 12 4) :
    (rebuild env R x p).Legal 12 4 := by
  obtain ⟨hsets, hstations⟩ := hx
  unfold rebuild countLive
  dsimp only
  split <;>
  exact ⟨h.checks, h.requests, by simp [hstations], by simp [hsets], h.bundles, h.base, h.least, h.most⟩

theorem mountBegin_legal (env : MountEnv) (h : p.Legal 12 4) : (mountBegin env p).Legal 12 4 := by
  have hstart : Replay.start.Whole := ⟨List.length_replicate, List.length_replicate⟩
  have hbegun : ∀ n, Part.Legal 12 4 (Part.withCat { p with device := .mounting, gap := false, store := noteMountReads env p.store }
      fun c => { c with nextSeq := n }) :=
    fun _ => ⟨h.checks, h.requests, h.stations, h.sets, h.bundles, h.base, h.least, h.most⟩
  have hgap : ∀ q : Part, q.Legal 12 4 → ∀ gap : Bool,
      (if gap then Part.raise { q with gap := true } .storeFault else q).Legal 12 4 := by
    intro q hq gap
    cases gap with
    | false => exact hq
    | true => exact hq.of_sizes rfl
  unfold mountBegin
  dsimp only
  split
  · have hq := hbegun (highest (allValid env (noteMountReads env p.store)) + 1)
    exact ⟨hq.checks, hq.requests, hq.stations, hq.sets, hq.bundles, hq.base, hq.least, hq.most⟩
  · exact (hgap _ (rebuild_legal env _ (replayFrom_whole _ _ _ _ hstart) (hbegun _)) _).of_sizes (Part.withCat_sizes fun _ => rfl)

theorem answerOne_sizes (a : Answers) (b : Bank) (op : BankOp) (p : Part) : (answerOne a b op p).1.sizes = p.sizes := by
  cases op with
  | eraseUnit u => exact cuEraseDone_sizes u (a.erases.headD .done) (finishHead p b)
  | programSlot u m data => exact cuSlotDone_sizes u m data (a.slots.headD .done) (finishHead p b)
  | programPage | readPage => rfl

theorem mount_legal (env : MountEnv) (h : p.Legal 12 4) : (mount env p).1.Legal 12 4 := by
  have hdriven : ∀ n a q, q.Legal 12 4 → (mountDrive n a q).1.Legal 12 4 :=
    mountDrive_keeps _ fun a b op q hq => hq.of_sizes (answerOne_sizes a b op q)
  have hrun := hdriven mountBound { erases := env.erases, slots := env.slots, order := env.order, cut := env.cut } _
    (ite_legal (x := (mountBegin env p).cat.work = .mount) (fun hq => hq.of_sizes (cuRun_sizes Config.workBound _))
      (mountBegin_legal env h))
  unfold mount
  dsimp only
  generalize mountDrive mountBound _ _ = driven at hrun ⊢
  split
  · exact hrun
  · exact hrun.of_sizes (by simp)

theorem releaseReset_legal (env : MountEnv) (h : p.Legal 12 4) : (releaseReset env p).Legal 12 4 := by
  unfold releaseReset
  refine ite_legal (fun h => ?_) h
  dsimp only
  split
  · exact resetPart_legal _ _
  · exact mount_legal env (h.of_sizes rfl)

theorem assertReset_legal (low : ResetLow) (torn : TornOps) (h : p.Legal 12 4) : (assertReset low torn p).Legal 12 4 := by
  cases low with
  | powerOn =>
    simp only [assertReset]
    split
    · exact h
    · exact (resetPart_legal torn p).of_sizes rfl
  | pulse ns taken => exact ite_legal (fun _ => resetPart_legal torn p) h

theorem losePower_legal (torn : TornOps) (h : p.Legal 12 4) : (losePower torn p).Legal 12 4 :=
  ite_legal (fun _ => (resetPart_legal torn p).of_sizes rfl) h

theorem exchangeFails_legal (h : p.Legal 12 4) : (exchangeFails p).Legal 12 4 := ite_legal exchangeFault_legal h

theorem bufferFails_sizes (u : BufferUser) (p : Part) : (bufferFails u p).sizes = p.sizes := by
  unfold bufferFails
  repeat' split
  all_goals simp

theorem readTimesOut_legal (t : TimeoutAt) (h : p.Legal 12 4) : (readTimesOut t p).Legal 12 4 := by
  cases t with
  | exchange => exact exchangeFails_legal h
  | buffer u => exact h.of_sizes (bufferFails_sizes u p)

end

/-! ## The commands -/

/-- A command keeps the sizes legal when its effect on the part does. -/
theorem apply_legal {s t : State} {f : Part → Part} (hs : s.part.Legal 12 4) (h : s.apply f = .next t)
    (hf : ∀ p : Part, p.Legal 12 4 → (f p).Legal 12 4) : t.part.Legal 12 4 := by
  cases h
  exact hf _ hs

/-- A command that leaves the sizes as they are keeps them legal. -/
theorem apply_legal_of_sizes {s t : State} {f : Part → Part} (hs : s.part.Legal 12 4) (h : s.apply f = .next t)
    (hf : ∀ p : Part, (f p).sizes = p.sizes) : t.part.Legal 12 4 := apply_legal hs h fun p hp => hp.of_sizes (hf p)

/-- Every command keeps the sizes legal. -/
theorem exec_legal {i : Instr} {s t : State} (hs : s.part.Legal 12 4) (h : exec i s = .next t) : t.part.Legal 12 4 := by
  cases i with
  | resetAssert low torn => exact apply_legal hs h fun _ => assertReset_legal low torn
  | resetRelease env => exact apply_legal hs h fun _ => releaseReset_legal env
  | pcieLinkReset => exact apply_legal_of_sizes hs h fun _ => rfl
  | powerLoss torn => exact apply_legal hs h fun _ => losePower_legal torn
  | busMasteringSwitch on => exact apply_legal_of_sizes hs h fun _ => rfl
  | exchangeTransferFault why => exact apply_legal hs h fun _ => exchangeFails_legal
  | readCompletionTimeout what => exact apply_legal hs h fun _ => readTimesOut_legal what
  | bufferTransferFailure user => exact apply_legal_of_sizes hs h (bufferFails_sizes user)
  | exbaseWrite high value => exact apply_legal hs h fun _ => ite_legal (writeExbase_legal high value)
  | exctlConfig value io => exact apply_legal hs h fun _ => ite_legal (writeExctl_legal value io)
  | portEnable count interval io => exact apply_legal hs h fun _ => ite_legal (writeExctl_legal _ io)
  | portDisable count interval => exact apply_legal hs h fun _ => ite_legal (writeExctl_legal _ [])
  | wake value => exact apply_legal_of_sizes hs h fun p => ite_sizes (askScan_sizes p)
  | causeClear value => exact apply_legal_of_sizes hs h fun _ => ite_sizes rfl
  | causecfgWrite value => exact apply_legal_of_sizes hs h fun _ => ite_sizes rfl
  | registerWriteOther w => exact apply_legal hs h fun _ => writeRegister_legal w []
  | scanTimerTick => exact apply_legal_of_sizes hs h scanTimerExpires_sizes
  | scan io => exact apply_legal hs h fun _ => makeScan_legal io
  | completionWrite io => exact apply_legal hs h fun _ => writeOldestCompletion_legal io
  | statusUpdate io => exact apply_legal hs h fun _ => writeStatus_legal io
  | keyswChange level => exact apply_legal_of_sizes hs h (changeKeysw_sizes level)
  | keyswDebounceExpiry => exact apply_legal_of_sizes hs h debounceExpires_sizes
  | secondsTick => exact apply_legal_of_sizes hs h secondPasses_sizes
  | windowExpiry => exact apply_legal_of_sizes hs h windowExpires_sizes
  | stalenessExpiry key => exact apply_legal_of_sizes hs h (verdictExpires_sizes key)
  | openChangeover | closeChangeover | abandonChangeover | holdOut | restore =>
    exact apply_legal hs h fun _ => takeLineSheet_legal _ _ _
  | enrol => exact apply_legal hs h fun _ => beginHead_legal _ beginEnrol_sizes
  | commit => exact apply_legal hs h fun _ => beginHead_legal _ beginCommit_sizes
  | discard => exact apply_legal hs h fun _ => beginHead_legal _ beginDiscard_sizes
  | revert => exact apply_legal hs h fun _ => beginHead_legal _ beginRevert_sizes
  | retire => exact apply_legal hs h fun _ => beginHead_legal _ beginRetire_sizes
  | readBaseline => exact apply_legal hs h fun _ => beginHead_legal _ beginReadBaseline_sizes
  | list upTo => exact apply_legal hs h fun _ => carryOnList_legal upTo
  | clearPeaks => exact apply_legal hs h fun _ => beginHead_legal _ beginClearPeaks_sizes
  | ruleLoad => exact apply_legal hs h fun _ => beginHead_legal _ beginRuleLoad_sizes
  | ruleSetDelete => exact apply_legal hs h fun _ => beginHead_legal _ beginRuleDelete_sizes
  | stationDefine => exact apply_legal hs h fun _ => beginHead_legal _ beginDefine_sizes
  | stationUndefine => exact apply_legal hs h fun _ => beginHead_legal _ beginUndefine_sizes
  | paramSet => exact apply_legal hs h fun _ => beginHead_legal _ beginParamSet_sizes
  | formatStore => exact apply_legal hs h fun _ => beginHead_legal _ beginFormat_sizes
  | persistenceMarkWrite | erasePendingUnits | reclaimStep | snapshot =>
    exact apply_legal_of_sizes hs h fun _ => beginOwn_sizes ..
  | damagedReport => exact apply_legal_of_sizes hs h takeReport_sizes
  | check | admission => exact apply_legal hs h fun _ => takeCheck_legal _
  | captureComplete lane host => exact apply_legal_of_sizes hs h fun _ => captureDone_sizes ..
  | pageReadDone bank errors => exact apply_legal_of_sizes hs h (endPageRead_sizes bank errors)
  | pageProgramDone bank outcome => exact apply_legal_of_sizes hs h (endPageProgram_sizes bank outcome)
  | slotProgramDone bank outcome => exact apply_legal_of_sizes hs h (endSlotProgram_sizes bank outcome)
  | eraseDone bank outcome => exact apply_legal_of_sizes hs h (endErase_sizes bank outcome)
  | enrolmentBufferReadDone host => exact apply_legal_of_sizes hs h (hostReadDone_sizes host)

/-- Settles O6: every command keeps the sizes legal, and a step is one command or none. -/
theorem queuesAndTablesStayLegal : Obligations.QueuesAndTablesStayLegal := by
  intro s t hs h
  rcases step_cases h with ⟨-, rfl⟩ | ⟨c, cs, -, hc⟩
  · exact hs
  · exact (legal_iff t).1 (exec_legal (s := { s with pending := cs }) ((legal_iff s).2 hs) hc)

end Sys2Proof.Machine
end

section
/-! The lanes (R63 to R69): their registers, their pins and the end of a request. Then a lane sets up (O57), a captured image arrives
(O58) or fails (O20). -/
namespace Sys2Proof.Machine

/-! ## The registers of a lane -/

section
variable (p : Part) (l : Lane) (x : LaneRegs)

@[simp] theorem Part.setLane_pins : (p.setLane l x).pins = p.pins := by cases l <;> rfl
@[simp] theorem Part.setLane_device : (p.setLane l x).device = p.device := by cases l <;> rfl
@[simp] theorem Part.setLane_att : (p.setLane l x).att = p.att := by cases l <;> rfl
@[simp] theorem Part.setLane_line : (p.setLane l x).line = p.line := by cases l <;> rfl
@[simp] theorem Part.setLane_rules : (p.setLane l x).rules = p.rules := by cases l <;> rfl
@[simp] theorem Part.setLane_store : (p.setLane l x).store = p.store := by cases l <;> rfl
@[simp] theorem Part.setLane_port : (p.setLane l x).port = p.port := by cases l <;> rfl
@[simp] theorem Part.setLane_host : (p.setLane l x).host = p.host := by cases l <;> rfl
@[simp] theorem Part.setLane_queue : (p.setLane l x).engine.queue = p.engine.queue := by cases l <;> rfl
@[simp] theorem Part.setLane_lane : (p.setLane l x).engine.lane l = x := by cases l <;> rfl

theorem Part.setLane_lane_other {k : Lane} (h : k ≠ l) : (p.setLane l x).engine.lane k = p.engine.lane k := by
  cases l <;> cases k
  · exact absurd rfl h
  · rfl
  · rfl
  · exact absurd rfl h

end

/-! ## The pin of a lane -/

/-- A lane with a pin releases it: the reader count of the unit falls (R66, R68, R115). -/
theorem releasePin_pinned {p : Part} {l : Lane} {u : Nat} (h : (p.engine.lane l).pin = some u) :
    releasePin p l = (p.setLane l { p.engine.lane l with pin := none }).withStore fun s => s.unpinUnit u := by simp [releasePin, h]

section
variable (p : Part) (l : Lane)

@[simp] theorem releasePin_att : (releasePin p l).att = p.att := by unfold releasePin; split <;> simp
@[simp] theorem releasePin_line : (releasePin p l).line = p.line := by unfold releasePin; split <;> simp
@[simp] theorem releasePin_port : (releasePin p l).port = p.port := by unfold releasePin; split <;> simp
@[simp] theorem releasePin_host : (releasePin p l).host = p.host := by unfold releasePin; split <;> simp

@[simp] theorem releasePin_queue (b : Bank) : (releasePin p l).store.queue b = p.store.queue b := by
  unfold releasePin
  split
  · rfl
  · simp [Store.unpinUnit]

end

/-! ## The end of a request -/

section
variable (p : Part) (l : Lane) (r : Request) (c : Code) (items : List (Nat × List Byte)) (fs : List Finding)

@[simp] theorem endLane_att : (endLane p l r c items fs).att = p.att := by simp [endLane]
@[simp] theorem endLane_line : (endLane p l r c items fs).line = p.line := by simp [endLane]
@[simp] theorem endLane_store : (endLane p l r c items fs).store = p.store := by simp [endLane]
@[simp] theorem endLane_host : (endLane p l r c items fs).host = p.host := by simp [endLane]
@[simp] theorem endLane_lane : (endLane p l r c items fs).engine.lane l = .reset := by simp [endLane]
@[simp] theorem endLane_completions : (endLane p l r c items fs).port.completions =
    (complete p r c (some (resultArea items)) (some (findingsArea fs))).port.completions := by simp [endLane, complete]
@[simp] theorem endLane_portState : (endLane p l r c items fs).port.state = p.port.state := by
  simp [endLane, complete, handOver]

end

/-! ## Setting up -/

/-- The tests 1 to 6 of R64 pass when each of them does. -/
theorem laneTests_none {p : Part} {r : Request} (hd : p.device = .ready)
    (hk : (r.kind = .check ∧ r.origin = 1#8 ∧ (r.selector = 0xFF ∨ r.selector ≤ 31)) ∨
      (r.kind = .admission ∧ r.originValid = true))
    (hst : r.station ≤ 15) (hbl : r.block ≤ 63) (hlo : 2 ≤ r.length) (hhi : r.length ≤ 16384) (heven : r.length % 2 = 0)
    (hal : r.address % 8 = 0) : laneTests p r = none := by
  rcases hk with ⟨hk, ho, hsel⟩ | ⟨hk, ho⟩
  · have hvalid : r.originValid = true := by simp [Request.originValid, ho]
    simp [laneTests, hd, hvalid, hk, Request.supervisor, ho, hst, hbl, hsel, hlo, hhi, heven, hal]
  · simp [laneTests, hd, ho, hk, hst, hbl, hlo, hhi, heven, hal]

/-- Lane A when both are IDLE, Lane B where it alone is (R63). -/
theorem idleLane_eq {e : Engine} {l : Lane} (hidle : (e.lane l).state = .idle) (hb : l = .b → e.laneA.state ≠ .idle) :
    idleLane e = some l := by
  cases l with
  | a => exact if_pos hidle
  | b => exact (if_neg (hb rfl)).trans (if_pos hidle)

/-- The head of the check queue goes to the idle lane (R62, R63). -/
theorem takeCheck_eq {p : Part} {l : Lane} {r : Request} {rest : List Request} (hon : p.on = true) (hq : p.engine.queue = r :: rest)
    (hl : idleLane p.engine = some l) :
    takeCheck p r.kind = openLane (askScan { p with engine := { p.engine with queue := rest } }) l r := by
  simp [takeCheck, hq, hl, hon]

/-- With all its tests passed a lane sets up (R64 to R66). -/
theorem openLane_setUp {p : Part} {l : Lane} {r : Request} {e : Entry} {g : Generation} {f : Nat} (ht : laneTests p r = none)
    (hst : (p.line.station r.station).defined = true) (hf : resolvedFormat p r = some f)
    (hlook : lookup p r.station r.block f = some (e, g)) (hdam : e.damaged = false)
    (hrules : (ruleSetAt p.rules e.ruleSet).isFaulted = false) : openLane p l r = setUpLane p l r e g f := by
  have hsetup : setupTests p r = .inr (e, g, f) := by simp [setupTests, hst, hf, hlook, hdam, hrules]
  simp [openLane, ht, hsetup]

/-- Settles O57: the head request passes every test of R64 in the lane that takes it, and the lane sets up (R66). -/
theorem laneSetsUp : Obligations.LaneSetsUp := by
  intro s l r rest f e g hon hd hq hidle hb hk hst hbl hlo hhi heven hal hdef hf hlook hdam hrules hunit
  have htake := takeCheck_eq hon hq (idleLane_eq hidle hb)
  generalize hp : askScan { s.part with engine := { s.part.engine with queue := rest } } = p at htake
  have hopen : openLane p l r = setUpLane p l r e g f := by
    subst hp
    exact openLane_setUp (laneTests_none (by simpa using hd) hk hst hbl hlo hhi heven hal) (by simpa using hdef)
      (by simpa [resolvedFormat] using hf) (by simpa [lookup] using hlook) hdam (by simpa using hrules)
  refine ⟨{ s with part := setUpLane p l r e g f }, ?_, ?_⟩
  · have hcmd : exec (if r.kind = .check then .check else .admission) s = s.apply fun p => takeCheck p r.kind := by
      rcases hk with ⟨hk, -⟩ | ⟨hk, -⟩ <;> rw [hk] <;> rfl
    rw [hcmd]
    exact apply_of_eq (htake.trans hopen)
  · subst hp
    have hreaders := modify_unit_same (s := s.part.store) (fun x => { x with readers := x.readers + 1 }) hunit
    refine ⟨by simp [setUpLane], fun k hkl => ?_, by simp [setUpLane], ?_, by simp [setUpLane], by simp [setUpLane],
      by simp [setUpLane], by simp [setUpLane], rfl⟩
    · simp only [setUpLane, Part.withStore_engine, Part.setLane_lane_other _ _ _ hkl, askScan_engine]
      cases k <;> rfl
    · simp [setUpLane, Store.pinUnit, hreaders]

/-! ## The captured image -/

/-- Settles O58: the port makes the last transfer, so the image is in the buffer and the first page is asked for (R67, R68). -/
theorem captureCompletes : Obligations.CaptureCompletes := by
  intro s l host r x image hon hstate hreq hsetup hen hmaster haddr himage
  have haddress : addressOk r.address r.length = true := decide_eq_true haddr
  have hopen : (bufferOpen (s.part.hostStores host) r && addressOk r.address r.length) = true := by
    simp [bufferOpen, haddress, hen, hmaster]
  have hread : (s.part.hostStores host).hostRead r.address r.length = image := himage.symm
  refine ⟨{ s with part := askPage ((s.part.hostStores host).setLane l { s.part.engine.lane l with
    state := .reading, capture := image, captureCrc := crc32 image }) l x.gen 0 }, apply_of_eq ?_, ?_⟩
  · simp [captureDone, hstate, hreq, hsetup, hon, hopen, hread]
  · simp [askPage]

/-! ## The captured image cannot be read -/

/-- A request that a failed transfer ends is refused where it is an ADMIT, and nothing is recorded (R67, R71, R80, R85). -/
theorem closeLane_transferError {p : Part} {l : Lane} {n : Notice} {sum : Summary} (ho : n.outcome = .code .transferError)
    (hk : n.req.kind = .check ∨ n.req.kind = .admission) :
    closeLane p l n sum = endLane p l n.req .transferError (sum.items ++
      (if n.req.kind = .check then [] else admitItems n.req.keyOn (refuse .transferError) p.line.state false)) sum.findings := by
  rcases hk with hk | hk
  · simp [closeLane, hk, checkNotice, ho]
  · simp [closeLane, hk, admitNotice, decideAdmit, ho, refuse]

/-- The failed transfer of a captured image (R67): the pin is released, and the request ends. -/
theorem captureFails_eq {p : Part} {l : Lane} {r : Request} (hstate : (p.engine.lane l).state = .capturing)
    (hreq : (p.engine.lane l).req = some r) (hk : r.kind = .check ∨ r.kind = .admission) :
    captureFails p l = endLane (releasePin p l) l r .transferError
      ((Summary.uncompared ((p.engine.lane l).setup.map LaneSetup.key)).items ++
        (if r.kind = .check then [] else admitItems r.keyOn (refuse .transferError) p.line.state false)) [] := by
  have hclose := closeLane_transferError (p := releasePin p l) (l := l) (n := (p.engine.lane l).notice r (.code .transferError))
    (sum := .uncompared ((p.engine.lane l).setup.map LaneSetup.key)) rfl hk
  simp only [captureFails, hstate, hreq]
  rw [hclose, releasePin_line]
  rfl

/-- A catalogue request in hand that ends at once from an await ends TRANSFER_ERROR, and nothing else changes (R13, R21). -/
theorem cuResume_transferError {s : State} {r : Request} (items : List (Nat × List Byte)) (hR : s.part.cat.req = some r) :
    EndsRequest s { s with part := cuResume s.part (finishWith .transferError items) } r s.part.cat.queue .transferError
      (resultArea items) ∧
    EndsWork s.part (cuResume s.part (finishWith .transferError items)) r .transferError (resultArea items) ∧
    (cuResume s.part (finishWith .transferError items)).att = s.part.att ∧
    (cuResume s.part (finishWith .transferError items)).store.flash = s.part.store.flash ∧
    (cuResume s.part (finishWith .transferError items)).port.state = s.part.port.state := by
  have hsame : cuResume s.part (finishWith .transferError items) =
      cuWork (finishWith .transferError items (s.part.withCat fun c => { c with await := none })) :=
    congrArg cuWork (freeTested_same rfl)
  obtain ⟨hwork, hends⟩ := endsRequest_of_finish (s := s) (p := s.part.withCat fun c => { c with await := none })
    (code := .transferError) (items := items) rfl hR rfl rfl
  have heq := cuWork_finishWith (p := s.part.withCat fun c => { c with await := none }) .transferError items rfl hR
  rw [hsame]
  refine ⟨hends, { hwork with }, ?_⟩
  rw [heq, cuSettle_att, cuSettle_flash, cuSettle_frame (fun q => q.port.state) _ (fun _ => rfl) fun _ => rfl]
  exact ⟨rfl, rfl, rfl⟩

/-- Settles O20: a lane's request ends with its pin released (R67, R85), the Catalogue Unit's as it waits (R13, R20, R21). -/
theorem captureFailureEndsTheCheck : Obligations.CaptureFailureEndsTheCheck := by
  refine ⟨?_, ?_⟩
  · intro s l r u hon hstate hreq hk hpin hunit
    have heq : bufferFails (.lane l) s.part = _ := (if_pos hon).trans (captureFails_eq hstate hreq hk)
    refine ⟨_, apply_of_eq heq, apply_of_eq (f := readTimesOut (.buffer (.lane l))) heq, ?_⟩
    have hreaders := modify_unit_same (s := s.part.store) (fun x => { x with readers := x.readers - 1 }) hunit
    refine ⟨?_, by simp [LaneRegs.reset], ?_, by rw [endLane_store]; exact releasePin_queue s.part l .even,
      by rw [endLane_store]; exact releasePin_queue s.part l .odd, by simp, by simp, by simp, by simp, by simp, rfl⟩
    · rcases hk with hk | hk <;>
      simp [Completes, complete, findingsArea, fillTo, hk, admitItems, refuse, Decision.value, Code.value, boolNat]
    · simp [releasePin_pinned hpin, Store.unpinUnit, hreaders]
  · intro s r hon hR
    refine ⟨fun hA => ?_, fun n hA => ?_, fun i hA hT => ?_⟩
    · have heq : bufferFails .catalogue s.part = cuResume s.part (finishWith .transferError []) := by
        simp only [bufferFails, hon, catalogueBufferFails, hA]
        rfl
      obtain ⟨hends, hwork, hatt, hflash, hport⟩ := cuResume_transferError [] hR
      exact ⟨_, apply_of_eq heq, apply_of_eq (f := readTimesOut (.buffer .catalogue)) heq, hends, hwork.entries, hwork.rules,
        hwork.line, hatt, hwork.host, hflash, hport⟩
    · have heq : bufferFails .catalogue s.part = cuResume s.part (finishWith .transferError [(64, leBytes 4 n)]) := by
        simp only [bufferFails, hon, catalogueBufferFails, hA]
        rfl
      obtain ⟨hends, hwork, hatt, -, hport⟩ := cuResume_transferError [(64, leBytes 4 n)] hR
      exact ⟨_, apply_of_eq heq, hends, hwork.entries, hwork.rules, hwork.line, hatt, hwork.host, hport⟩
    · refine apply_of_eq ?_
      simp [bufferFails, hon, catalogueBufferFails, hA, hT, onlyDo, Part.withCat]

end Sys2Proof.Machine
end

section
/-! The last page of a baseline (R68): the comparison is made, and the Line Controller records its verdict (O59). -/
namespace Sys2Proof.Machine

/-! ## Recording a verdict -/

/-- What a recorded verdict brings about: the recomputation, and where it ends SETTLING the passage to RUNNING (R91, R97). -/
theorem afterRecording_cases (p : Part) : afterRecording p = recompute p ∨
    (p.line.state = .settling ∧ afterRecording p = recompute (enterRunning (recompute p))) := by
  unfold afterRecording settlingTest
  split
  · rename_i hstate _
    split
    · exact .inr ⟨by simpa using hstate, rfl⟩
    · exact .inl rfl
  · exact .inl rfl

@[simp] theorem afterRecording_store (p : Part) : (afterRecording p).store = p.store := by
  rcases afterRecording_cases p with h | ⟨-, h⟩ <;> rw [h]
  · simp
  · exact (recompute_store _).trans (recompute_store p)

@[simp] theorem afterRecording_host (p : Part) : (afterRecording p).host = p.host := by
  rcases afterRecording_cases p with h | ⟨-, h⟩ <;> rw [h]
  · simp
  · exact (recompute_host _).trans (recompute_host p)

@[simp] theorem afterRecording_completions (p : Part) : (afterRecording p).port.completions = p.port.completions := by
  rcases afterRecording_cases p with h | ⟨-, h⟩ <;> rw [h]
  · simp
  · exact (recompute_completions _).trans (recompute_completions p)

/-- Every entry stays as it is, or takes the present second where the recording ends SETTLING (R97, R101). -/
theorem afterRecording_entries (p : Part) : ∃ f : Entry → Entry, (afterRecording p).cat.entries = p.cat.entries.map f ∧
    ∀ e, f e = e ∨ (p.line.state = .settling ∧ f e = { e with second := p.line.seconds }) := by
  rcases afterRecording_cases p with h | ⟨hs, h⟩
  · exact ⟨id, by simp [h], fun _ => .inl rfl⟩
  · refine ⟨fun e => if e.verdict.ages then { e with second := p.line.seconds } else e, ?_, fun e => ?_⟩
    · simp [h, enterRunning, restartAgeing, markFormat]
    · dsimp only
      split
      · exact .inr ⟨hs, rfl⟩
      · exact .inl rfl

/-- The recomputation takes no cause away (R91, R103). -/
theorem recompute_isPending {p : Part} {c : Cause} (h : p.isPending c = true) : (recompute p).isPending c = true := by
  have hdrive : ∀ q : Part, q.isPending c = true → (driveConform q).isPending c = true := by
    intro q hq
    unfold driveConform
    dsimp only
    split
    · exact Part.isPending_raise _ _ c hq
    · exact hq
  unfold recompute
  refine hdrive _ ?_
  dsimp only
  split
  · exact h
  · exact Part.isPending_raise _ _ c h

theorem afterRecording_isPending {p : Part} {c : Cause} (h : p.isPending c = true) : (afterRecording p).isPending c = true := by
  rcases afterRecording_cases p with hr | ⟨-, hr⟩ <;> rw [hr]
  · exact recompute_isPending h
  · have hrun : (enterRunning (recompute p)).isPending c = true := Part.isPending_raise _ _ c (recompute_isPending h)
    exact recompute_isPending hrun

/-- The entry a verdict is recorded in: the verdict with the present second and epoch, the greater peaks (R61, R70). -/
def recordIn (l : Line) (uid : Nat) (t : Tally) (e : Entry) : Entry :=
  if e.uid = uid then offerPeaks t (stampVerdict l t.verdict e) else e

theorem recordVerdict_eq (p : Part) (x : LaneSetup) (t : Tally) :
    recordVerdict p x t = afterRecording (p.withEntries fun es => es.map (recordIn p.line x.entry t)) := rfl

@[simp] theorem recordIn_uid (l : Line) (uid : Nat) (t : Tally) (e : Entry) : (recordIn l uid t e).uid = e.uid := by
  unfold recordIn
  split <;> rfl

theorem recordIn_of_uid {l : Line} {uid : Nat} {t : Tally} {e : Entry} (h : e.uid = uid) :
    recordIn l uid t e = offerPeaks t (stampVerdict l t.verdict e) := if_pos h

theorem recordIn_other {l : Line} {uid : Nat} {t : Tally} {e : Entry} (h : e.uid ≠ uid) : recordIn l uid t e = e := if_neg h

@[simp] theorem recordVerdict_store (p : Part) (x : LaneSetup) (t : Tally) : (recordVerdict p x t).store = p.store :=
  afterRecording_store _
@[simp] theorem recordVerdict_host (p : Part) (x : LaneSetup) (t : Tally) : (recordVerdict p x t).host = p.host :=
  afterRecording_host _
@[simp] theorem recordVerdict_completions (p : Part) (x : LaneSetup) (t : Tally) :
    (recordVerdict p x t).port.completions = p.port.completions := afterRecording_completions _

section
variable {p : Part} {x : LaneSetup} {t : Tally}

theorem recordVerdict_isPending {c : Cause} (h : p.isPending c = true) : (recordVerdict p x t).isPending c = true :=
  afterRecording_isPending h

/-- Every entry after a recording is the one recorded in, or takes the present second where the recording ends SETTLING. -/
theorem recordVerdict_entries (p : Part) (x : LaneSetup) (t : Tally) : ∃ f : Entry → Entry,
    (recordVerdict p x t).cat.entries = p.cat.entries.map (fun e => f (recordIn p.line x.entry t e)) ∧
    ∀ e, f e = e ∨ (p.line.state = .settling ∧ f e = { e with second := p.line.seconds }) := by
  obtain ⟨f, hf, hcases⟩ := afterRecording_entries (p.withEntries fun es => es.map (recordIn p.line x.entry t))
  exact ⟨f, by rw [recordVerdict_eq, hf, Part.withEntries_entries, List.map_map]; rfl, hcases⟩

/-- The entry recorded in has the verdict, with the present second and epoch (R4, R70). -/
theorem recordVerdict_recorded {e' : Entry} (he' : e' ∈ (recordVerdict p x t).cat.entries) (huid : e'.uid = x.entry) :
    e'.verdict = t.verdict ∧ e'.second = p.line.seconds ∧ e'.epoch = p.line.epoch := by
  obtain ⟨f, hentries, hf⟩ := recordVerdict_entries p x t
  rw [hentries] at he'
  obtain ⟨e, -, rfl⟩ := List.mem_map.1 he'
  have huid' : e.uid = x.entry := by
    rw [← huid, ← recordIn_uid p.line x.entry t e]
    rcases hf (recordIn p.line x.entry t e) with h | ⟨-, h⟩ <;> rw [h]
  rcases hf (recordIn p.line x.entry t e) with h | ⟨-, h⟩ <;> rw [h, recordIn_of_uid huid'] <;> exact ⟨rfl, rfl, rfl⟩

/-- But for the seconds, a recording changes the entry recorded in and no other. -/
theorem recordVerdict_but_seconds : (recordVerdict p x t).cat.entries.map (fun e => { e with second := 0 }) =
    p.cat.entries.map fun e => { recordIn p.line x.entry t e with second := 0 } := by
  obtain ⟨f, hentries, hf⟩ := recordVerdict_entries p x t
  rw [hentries, List.map_map]
  refine List.map_congr_left fun e _ => ?_
  rcases hf (recordIn p.line x.entry t e) with h | ⟨-, h⟩ <;> exact congrArg (fun y : Entry => { y with second := 0 }) h

/-- Outside SETTLING every other entry stays as it is. -/
theorem recordVerdict_other {e : Entry} (hstate : p.line.state ≠ .settling) (he : e ∈ p.cat.entries) (huid : e.uid ≠ x.entry) :
    e ∈ (recordVerdict p x t).cat.entries := by
  obtain ⟨f, hentries, hf⟩ := recordVerdict_entries p x t
  rw [hentries]
  refine List.mem_map.2 ⟨e, he, ?_⟩
  rw [recordIn_other huid]
  exact (hf e).resolve_right fun h => hstate h.1

end

/-! ## The comparison -/

/-- The summary of a comparison (R58). -/
def comparedSummary (x : LaneRegs) (s : LaneSetup) (baseline : List Byte) (t : Tally) (overruns : Nat) : Summary :=
  { imageSummary x s (crc32 baseline) with
    verdict := some t.verdict, compared := t.compared, tolerated := t.tolerated, total := t.total, overruns := overruns
    usage := t.usage, usageRule := t.usageRule, usageAt := t.usageAt, track := t.track, trackAt := t.trackAt, findings := t.kept }

/-- The comparison of an ACTIVE CHECK to which the three conditions of R70 still apply is recorded, and the CHECK ends OK. -/
theorem comparisonDone_records {p : Part} {l : Lane} {x : LaneRegs} {r : Request} {s : LaneSetup} {base : List Byte}
    {res : Tally × Nat} (hres : res = compareImages x.rules x.order base x.capture) (hk : r.kind = .check) (hsel : r.selector = 0xFF)
    (hsetup : x.setup = some s) (happlies : stillApplies p (x.notice r (.verdict res.1)) s = true) :
    comparisonDone p l x r s base = endLane (recordVerdict (if res.1.watch then p.raise .watchHit else p) s res.1) l r .ok
      (comparedSummary x s base res.1 res.2).items res.1.kept := by
  have hraised : stillApplies (if res.1.watch then p.raise .watchHit else p) (x.notice r (.verdict res.1)) s = true := by
    split
    · exact happlies
    · exact happlies
  have hactive : r.active = true := by simp [Request.active, hsel]
  have hnotice : checkNotice (if res.1.watch then p.raise .watchHit else p) (x.notice r (.verdict res.1)) =
      (recordVerdict (if res.1.watch then p.raise .watchHit else p) s res.1, .ok) := by
    simp only [LaneRegs.notice, hsetup, Option.map_some] at hraised ⊢
    simp [checkNotice, hactive, hraised]
  have hkind : (x.notice r (.verdict res.1)).req.kind ≠ .admission := by simp [LaneRegs.notice, hk]
  unfold comparisonDone
  rw [← hres]
  simp only [closeLane, if_neg hkind, hnotice]
  rfl

/-- A heavy correction changes no byte of a page (R107). -/
theorem noteRead_pageData (s : Store) (u errors v page : Nat) : (s.noteRead u errors).pageData v page = s.pageData v page := by
  unfold Store.noteRead
  split <;> rfl

theorem noteRead_queue (s : Store) (u errors : Nat) (b : Bank) : (s.noteRead u errors).queue b = s.queue b := by
  unfold Store.noteRead
  split
  · exact modify_queue ..
  · rfl

/-- The registers of a lane once a page of the baseline has arrived (R68). -/
def LaneRegs.withPage (x : LaneRegs) (data : List Byte) : LaneRegs :=
  { x with baseline := x.baseline ++ data, pagesRead := x.pagesRead + 1 }

/-- The part once the last page of a lane has arrived readable, before its comparison (R66, R68). -/
def lastPageRead (l : Lane) (unit page errors : Nat) (p : Part) : Part :=
  releasePin ((handOver (p.withStore fun st => st.noteRead unit errors)).setLane l
    ((p.engine.lane l).withPage (p.store.pageData unit page))) l

section
variable (l : Lane) (unit page errors : Nat) (p : Part)

@[simp] theorem lastPageRead_cat : (lastPageRead l unit page errors p).cat = p.cat := by simp [lastPageRead]
@[simp] theorem lastPageRead_line : (lastPageRead l unit page errors p).line = p.line := by simp [lastPageRead]
@[simp] theorem lastPageRead_host : (lastPageRead l unit page errors p).host = p.host := by simp [lastPageRead]
@[simp] theorem lastPageRead_completions : (lastPageRead l unit page errors p).port.completions = p.port.completions := by
  simp [lastPageRead]
@[simp] theorem lastPageRead_queue (b : Bank) : (lastPageRead l unit page errors p).store.queue b = p.store.queue b := by
  simp [lastPageRead, noteRead_queue]

end

/-- The last page arrives readable and the CRC agrees: the comparison follows (R60, R68). -/
theorem laneReadDone_last {p : Part} {l : Lane} {unit page errors : Nat} {r : Request} {s : LaneSetup} {base : List Byte}
    (hstate : (p.engine.lane l).state = .reading) (hreq : (p.engine.lane l).req = some r) (hsetup : (p.engine.lane l).setup = some s)
    (herr : errors ≤ 8) (hlast : (p.engine.lane l).pagesRead + 1 = s.gen.pages)
    (hbase : base = ((p.engine.lane l).baseline ++ p.store.pageData unit page).take s.gen.length) (hcrc : crc32 base = s.gen.crc) :
    laneReadDone l unit page errors p = comparisonDone (lastPageRead l unit page errors p) l
      ((p.engine.lane l).withPage (p.store.pageData unit page)) r s base := by
  subst hbase
  simp only [laneReadDone, hstate, hreq, hsetup, readable, herr, decide_true, if_true, handOver_store, Part.withStore_store,
    noteRead_pageData, hlast, Nat.lt_irrefl, if_false, hcrc]
  simp [lastPageRead, LaneRegs.withPage, hstate, hreq, hsetup, hlast]

/-- The bits in error that a read meets are at most those given. -/
theorem Store.pageErrors_le (s : Store) (u page errors : Nat) : s.pageErrors u page errors ≤ errors := by
  unfold Store.pageErrors
  split
  · exact Nat.zero_le _
  · exact Nat.le_refl _

/-- The conditions of R70, from the entry that the lane noted. -/
theorem stillApplies_of {p : Part} {n : Notice} {s : LaneSetup} (hremoved : n.removed = false) (hepoch : p.line.epoch = s.epoch)
    (he : ∃ e ∈ p.cat.entries, findUid p.cat.entries s.entry = some e ∧ e.current.map Generation.number = some s.gen.number) :
    stillApplies p n s = true := by
  obtain ⟨e, -, hfind, hgen⟩ := he
  simpa [stillApplies, hremoved, hepoch, hfind] using hgen

/-- The end of a page read goes to the lane that asked for it (R106, R107). -/
theorem endPageRead_lane {p : Part} {b : Bank} {l : Lane} {u page : Nat} {q : List BankJob} (errors : Nat) (hon : p.on = true)
    (hq : p.store.queue b = { client := .lane l, op := .readPage u page } :: q) :
    endPageRead b errors p = laneReadDone l u page (p.store.pageErrors u page errors) (finishHead p b) := by
  simp [endPageRead, hq, hon]

theorem finishHead_pageData (p : Part) (b : Bank) (u page : Nat) :
    (finishHead p b).store.pageData u page = p.store.pageData u page := by cases b <;> rfl

/-- Settles O59: the last page ends in the comparison, the comparison in the recording, and the lane is IDLE (R60, R68, R70). -/
theorem lastPageRecordsTheVerdict : Obligations.LastPageRecordsTheVerdict := by
  intro s b l q errors r x base res hon hq hstate hreq hsetup hk hsel herr hlast hbase hcrc hres hremoved hepoch he
  generalize x.gen.first + (s.part.engine.lane l).pagesRead = page at hq hbase
  generalize hp : lastPageRead l x.gen.unit page (s.part.store.pageErrors x.gen.unit page errors) (finishHead s.part b) = p
  generalize hy : (s.part.engine.lane l).withPage (s.part.store.pageData x.gen.unit page) = y
  have hread : endPageRead b errors s.part = comparisonDone p l y r x base := by
    have hdone := laneReadDone_last (p := finishHead s.part b) (unit := x.gen.unit) (page := page) hstate hreq hsetup
      (Nat.le_trans (s.part.store.pageErrors_le x.gen.unit page errors) herr) hlast (by rw [finishHead_pageData]; exact hbase) hcrc
    rw [finishHead_pageData, hp] at hdone
    exact (endPageRead_lane errors hon hq).trans (hdone.trans (by rw [← hy]; rfl))
  have happlies : stillApplies p (y.notice r (.verdict res.1)) x = true :=
    stillApplies_of (by rw [← hy]; exact hremoved) (by rw [← hp, lastPageRead_line]; exact hepoch)
      (by rw [← hp, lastPageRead_cat]; exact he)
  have hcompare := comparisonDone_records (p := p) (l := l) (base := base) (res := res) (by rw [← hy]; exact hres) hk hsel
    (by rw [← hy]; exact hsetup) happlies
  generalize hw : (if res.1.watch then p.raise .watchHit else p) = w at hcompare
  obtain ⟨hline, hcat, hhost, hqueue, hcompletions⟩ : w.line = s.part.line ∧ w.cat = s.part.cat ∧ w.host = s.part.host ∧
      w.store.queue b = q ∧ w.port.completions = s.part.port.completions := by
    rw [← hw, ← hp]
    split <;> simp [finishHead, hq]
  refine ⟨_, apply_of_eq (hread.trans hcompare), by simp [LaneRegs.reset], ?_, ?_, ?_, ?_, ?_, ?_, ?_, rfl⟩
  · intro e' he' huid
    rw [endLane_cat] at he'
    rw [← hline]
    exact recordVerdict_recorded he' huid
  · rw [endLane_cat, recordVerdict_but_seconds, hline, hcat]
    refine List.map_congr_left fun e _ => ?_
    unfold recordIn
    split <;> rfl
  · intro hsettling e he' huid
    rw [endLane_cat]
    exact recordVerdict_other (by rw [hline]; exact hsettling) (by rw [hcat]; exact he') huid
  · intro hwatch
    have hraised : w.isPending .watchHit = true := by
      rw [← hw, if_pos hwatch]
      exact p.raise_isPending .watchHit
    rw [Part.isPending, endLane_att]
    exact recordVerdict_isPending hraised
  · simpa using hqueue
  · have hcapture : y.capture = (s.part.engine.lane l).capture ∧ y.captureCrc = (s.part.engine.lane l).captureCrc := by
      rw [← hy]
      exact ⟨rfl, rfl⟩
    simp only [Completes, endLane_completions, complete, recordVerdict_completions, hcompletions, comparedSummary, imageSummary,
      Summary.items, findingsArea, hcapture, hcrc]
    rfl
  · simpa using hhost

end Sys2Proof.Machine
end

section
/-! The decision of an admission (R80 to R83): what each of its tests asks before GRANTED is answered. -/
namespace Sys2Proof.Machine

/-! ## The origin of a request -/

/-- The two origins that R80 and R82 tell apart once a SUPERVISOR is left out: an OPERATOR is who is no ENGINEER. -/
theorem Request.engineer_false_iff {r : Request} (hvalid : r.originValid = true) (hs : r.origin ≠ 1#8) :
    r.engineer = false ↔ r.origin = 3#8 := by
  have hrange : 1 ≤ r.origin.toNat ∧ r.origin.toNat ≤ 3 := of_decide_eq_true hvalid
  simp only [Request.engineer, beq_eq_false_iff_ne]
  bv_omega

/-! ## Answers that grant -/

@[simp] theorem refuse_not_granted (c : Code) : (refuse c).decision ≠ .granted := Decision.noConfusion
@[simp] theorem grant_granted (c : Code) : (grant c).decision = .granted := rfl

/-- A test that refuses is one more condition of the grant. -/
@[simp] theorem refuseIf_granted_iff (b : Prop) [Decidable b] (c : Code) (a : Answer) :
    (if b then refuse c else a).decision = .granted ↔ ¬ b ∧ a.decision = .granted := by
  by_cases h : b <;> simp [h]

theorem Verdict.passes_iff (v : Verdict) : v.passes = true ↔ v = .conform ∨ v = .tolerated := by
  cases v <;> simp [Verdict.passes]

section
variable (p : Part) (n : Notice) (v : Verdict)

/-- The last tests of R82 grant exactly when both pass. -/
theorem passOrRefuse_granted_iff :
    (passOrRefuse p n v).decision = .granted ↔ v.passes = true ∧ stillCurrent p n = true := by
  simp [passOrRefuse]

/-- The window of R82: who may be granted a passing verdict in which line state. -/
def AdmitWindow : Prop :=
  (p.line.state = .running ∧ n.req.engineer = false ∧ p.line.params.operatorAdmit = true) ∨
    ((p.line.state = .changeover ∨ p.line.state = .settling) ∧ n.req.engineer = true ∧ n.req.keyOn = true)

/-- The table of R82 grants exactly the passing, current verdicts within the window. -/
theorem decideByLine_granted_iff : (decideByLine p n v).decision = .granted ↔
    (v.passes = true ∧ stillCurrent p n = true) ∧ AdmitWindow p n := by
  rw [← passOrRefuse_granted_iff, and_comm]
  cases hstate : p.line.state with
  | running => simp [decideByLine, AdmitWindow, hstate, and_assoc]
  | changeover | settling => simp [decideByLine, AdmitWindow, hstate, and_assoc]
  | noFormat | unready => simp [decideByLine, AdmitWindow, hstate]

/-- R80, R81: an unread image and a SUPERVISOR are never answered GRANTED; an ENGINEER's held-out station is, whatever the
outcome; the rest is for the table of R82. -/
theorem decideAdmit_granted_iff : (decideAdmit p n).decision = .granted ↔
    n.outcome ≠ .code .transferError ∧ n.req.supervisor = false ∧
      ((n.req.engineer = true ∧ (p.line.station n.req.station).defined = true ∧
          (p.line.station n.req.station).heldOut = true ∧ n.req.keyOn = true) ∨
        ∃ t, n.outcome = .verdict t ∧ (decideByLine p n t.verdict).decision = .granted) := by
  rw [decideAdmit, refuseIf_granted_iff]
  refine and_congr_right fun _ => ?_
  by_cases hsuper : n.req.supervisor = true
  · simp [hsuper]
  rw [if_neg hsuper]
  by_cases hheld : n.req.engineer = true ∧ (p.line.station n.req.station).defined = true ∧
      (p.line.station n.req.station).heldOut = true ∧ n.req.keyOn = true
  · simp [hsuper, hheld]
  · cases hout : n.outcome with
    | code c => simp [hheld]
    | verdict t => simp [hsuper, hheld]

end

/-- Settles O14: R80 leaves the table of R82 to the OPERATOR and the ENGINEER, whom the origin byte tells apart. -/
theorem admitGrantedExactlyWhen : Obligations.AdmitGrantedExactlyWhen := by
  intro p n hvalid
  have hsupervisor : n.req.supervisor = false ↔ n.req.origin ≠ 1#8 := beq_eq_false_iff_ne
  have hengineer : n.req.engineer = true ↔ n.req.origin = 2#8 := beq_iff_eq
  rw [decideAdmit_granted_iff, hsupervisor]
  refine and_congr_right fun _ => and_congr_right fun hs => ?_
  simp only [decideByLine_granted_iff, AdmitWindow, Verdict.passes_iff, Request.engineer_false_iff hvalid hs, hengineer,
    and_assoc]

end Sys2Proof.Machine
end

section
/-! The memories through the store and the work of the Catalogue Unit. Host memory and the flash are written by few operations, each
in the canonical form (logs 2 and 3); every other operation leaves both as they are. -/
namespace Sys2Proof.Machine

/-- Host memory and the flash. -/
def Part.memories (p : Part) : Mem × Mem := (p.host, p.store.flash)

/-- Host memory and the flash are in canonical form. -/
structure Part.Canonical (p : Part) : Prop where
  host  : Mem.wf hostBlank p.host = true
  flash : Mem.wf flashBlank p.store.flash = true

/-- The invariant of the claim is that of the part. -/
theorem canonical_iff (s : State) : s.part.Canonical ↔ MemoriesCanonical s :=
  ⟨fun h => ⟨h.host, h.flash⟩, fun ⟨hhost, hflash⟩ => ⟨hhost, hflash⟩⟩

/-- Whether the memories of a part are canonical shows in them alone. -/
theorem Part.Canonical.of_memories {p q : Part} (h : p.Canonical) (hq : q.memories = p.memories) : q.Canonical := by
  obtain ⟨hhost, hflash⟩ := Prod.mk.inj hq
  exact ⟨hhost ▸ h.host, hflash ▸ h.flash⟩

/-! ## The flash through the store's operations -/

namespace Store
variable (s : Store) (u n : Nat)

@[simp] theorem modify_flash (f : EraseUnit → EraseUnit) : (s.modify u f).flash = s.flash := rfl
@[simp] theorem pinUnit_flash : (s.pinUnit u).flash = s.flash := rfl
@[simp] theorem unpinUnit_flash : (s.unpinUnit u).flash = s.flash := rfl
@[simp] theorem addLive_flash : (s.addLive u n).flash = s.flash := rfl
@[simp] theorem dropLive_flash : (s.dropLive u n).flash = s.flash := rfl
@[simp] theorem dropGen_flash (g : Option Generation) : (s.dropGen g).flash = s.flash := by cases g <;> rfl
@[simp] theorem dropImage_flash (i : Option SetImage) : (dropImage s i).flash = s.flash := by cases i <;> rfl
@[simp] theorem fillUnit_flash : (s.fillUnit u).flash = s.flash := rfl
@[simp] theorem markBad_flash : (s.markBad u).flash = s.flash := rfl
@[simp] theorem skipUnit_flash : (s.skipUnit u).flash = s.flash := rfl
@[simp] theorem stopRun_flash : s.stopRun.flash = s.flash := rfl
@[simp] theorem setQueue_flash (b : Bank) (q : List BankJob) : (s.setQueue b q).flash = s.flash := by cases b <;> rfl
@[simp] theorem ask_flash (c : Client) (op : BankOp) : (s.ask c op).flash = s.flash := setQueue_flash ..

@[simp] theorem noteRead_flash (errors : Nat) : (s.noteRead u errors).flash = s.flash := by
  unfold noteRead
  split <;> rfl

@[simp] theorem openFresh_flash : (openFresh s u).flash = s.flash := by
  unfold openFresh
  cases s.openUnit <;> rfl

@[simp] theorem placeRun_flash : (placeRun s n).2.flash = s.flash := by
  unfold placeRun
  repeat' split
  all_goals simp

/-- Choosing a unit sets passed-over marks alone (R118). The recursion is opened by its recursor: the equation lemma of pickUnit would
have Lean run through the 1024 units of its candidate. -/
@[simp] theorem pickUnit_flash : (pickUnit n s).2.flash = s.flash := by
  delta pickUnit pickUnit._f
  dsimp only [Nat.brecOn, Nat.brecOn.go]
  induction n generalizing s with
  | zero => rfl
  | succ n ih =>
    dsimp only
    generalize candidate s = found
    cases found with
    | none => rfl
    | some u =>
      dsimp only
      split
      · exact ih (s.modify u fun x => { x with passed := true })
      · rfl

/-- Operations that leave the flash as it is leave it so in a row. -/
theorem foldl_flash {α : Type} {f : Store → α → Store} (hf : ∀ t x, (f t x).flash = t.flash) (xs : List α) :
    (xs.foldl f s).flash = s.flash := by
  induction xs generalizing s with
  | nil => rfl
  | cons x xs ih => exact (ih _).trans (hf s x)

end Store

/-! ## Small updates -/

section
variable (p : Part)

@[simp] theorem Part.raise_memories (c : Cause) : (p.raise c).memories = p.memories := rfl
@[simp] theorem Part.withCat_memories (f : CatUnit → CatUnit) : (p.withCat f).memories = p.memories := rfl
@[simp] theorem Part.withEntries_memories (f : List Entry → List Entry) : (p.withEntries f).memories = p.memories := rfl
@[simp] theorem Part.modifyEntry_memories (u : Nat) (f : Entry → Entry) : (p.modifyEntry u f).memories = p.memories := rfl
@[simp] theorem Part.modifyStation_memories (n : Nat) (f : Station → Station) : (p.modifyStation n f).memories = p.memories := rfl
@[simp] theorem Part.modifyBundle_memories (b : Nat) (f : Bundle → Bundle) : (p.modifyBundle b f).memories = p.memories := rfl
@[simp] theorem Part.setLane_memories (l : Lane) (x : LaneRegs) : (p.setLane l x).memories = p.memories := by cases l <;> rfl
@[simp] theorem complete_memories (r : Request) (c : Code) (x y : Option (List Byte)) :
    (complete p r c x y).memories = p.memories := rfl
@[simp] theorem handOver_memories : (handOver p).memories = p.memories := rfl
@[simp] theorem push_memories (ops : List CuOp) : (push ops p).memories = p.memories := rfl
@[simp] theorem onlyDo_memories (ops : List CuOp) : (onlyDo ops p).memories = p.memories := rfl
@[simp] theorem finishWith_memories (c : Code) (items : List (Nat × List Byte)) : (finishWith c items p).memories = p.memories := rfl
@[simp] theorem fail_memories (c : Code) : (fail c p).memories = p.memories := rfl
@[simp] theorem thenOk_memories (items : List (Nat × List Byte)) : (thenOk items p).memories = p.memories := rfl
@[simp] theorem endJob_memories : (endJob p).memories = p.memories := rfl
@[simp] theorem waitBad_memories (u : Nat) : (waitBad u p).memories = p.memories := rfl
@[simp] theorem uncheck_memories (which : Entry → Bool) : (uncheck p which).memories = p.memories := rfl
@[simp] theorem mapMarks_memories (f : Mark → Mark) : (mapMarks f p).memories = p.memories := rfl
@[simp] theorem stayAtSource_memories (u : Nat) : (stayAtSource u p).memories = p.memories := rfl

/-- A change of the store that leaves the flash as it is. -/
@[simp] theorem Part.withStore_memories {p : Part} {f : Store → Store} (hf : ∀ s, (f s).flash = s.flash) :
    (p.withStore f).memories = p.memories := by simp [Part.memories, hf]

@[simp] theorem issue_memories (op : BankOp) (w : CuAwait) : (issue op w p).memories = p.memories := by simp [Part.memories, issue]
@[simp] theorem askScan_memories : (askScan p).memories = p.memories := by simp [Part.memories]
@[simp] theorem recompute_memories : (recompute p).memories = p.memories := by simp [Part.memories]
@[simp] theorem reclaimTest_memories : (reclaimTest p).memories = p.memories := by
  rcases reclaimTest_cases p with h | h | h <;> rw [h] <;> rfl
@[simp] theorem cuSettle_memories : (cuSettle p).memories = p.memories := by simp [Part.memories]

@[simp] theorem settleStations_memories : (settleStations p).memories = p.memories := by
  obtain ⟨-, -, hstore, -, -, hhost, -⟩ := settleStations_frame p
  simp [Part.memories, hstore, hhost]

@[simp] theorem freeTested_memories (old : Part) : (freeTested old p).memories = p.memories :=
  freeTested_keeps (fun q => q.memories = p.memories) (fun q hq => (reclaimTest_memories q).trans hq) (fun _ hq => hq) old p rfl

/-! ## The operations of the Catalogue Unit -/

@[simp] theorem snapRead_memories (i : SnapItem) : (snapRead p i).memories = p.memories := by cases i <;> rfl

@[simp] theorem readFor_memories (w : Writer) : (readFor p w).memories = p.memories := by
  obtain ⟨l, h⟩ := readFor_eq p w
  rw [h]
  rfl

@[simp] theorem fullFor_memories (w : Writer) : (fullFor w p).memories = p.memories := by cases w <;> rfl

@[simp] theorem journalFull_memories (w : Writer) : (journalFull w p).memories = p.memories := fullFor_memories ..

@[simp] theorem putSlot_memories (again : Bool) (recs : List JournalRecord) (num : Nat) (w : Writer) :
    (putSlot again recs num w p).memories = p.memories := by
  unfold putSlot
  split <;> simp

@[simp] theorem putRecord_memories (recs : List JournalRecord) (w : Writer) : (putRecord recs w p).memories = p.memories := by
  unfold putRecord
  split <;> simp

@[simp] theorem appendRecords_memories (k : Option Nat) (again : Bool) (w : Writer) :
    (appendRecords k again w p).memories = p.memories := by
  unfold appendRecords
  repeat' split
  all_goals simp

@[simp] theorem applyEnrol_memories : (applyEnrol p).memories = p.memories := by
  unfold applyEnrol
  split
  · dsimp only
    split <;> simp
  · rfl

@[simp] theorem applyCommit_memories (f : Nat) : (applyCommit f p).memories = p.memories := by
  have hdrop (s : Store) := s.foldl_flash (fun t (e : Entry) => t.dropGen_flash e.previous) (stagedOf p f)
  simp [applyCommit, hdrop]

@[simp] theorem applyDiscard_memories (k : Key) : (applyDiscard k p).memories = p.memories := by
  unfold applyDiscard
  split <;> simp

@[simp] theorem applyRevert_memories (k : Key) : (applyRevert k p).memories = p.memories := by
  unfold applyRevert
  split <;> simp

@[simp] theorem applyRetire_memories (k : Key) : (applyRetire k p).memories = p.memories := by
  unfold applyRetire
  split
  · rfl
  · rename_i e _
    have hdrop := Store.foldl_flash p.store (fun t (g : Generation) => t.dropLive_flash g.unit g.pages) e.generations
    simp [Part.memories, thenOk, push, hdrop]

@[simp] theorem applyRuleLoad_memories : (applyRuleLoad p).memories = p.memories := by
  unfold applyRuleLoad
  split
  · simp [Part.memories, thenOk, push]
  · rfl

@[simp] theorem applyRuleDelete_memories (n : Nat) : (applyRuleDelete n p).memories = p.memories := by
  simp [applyRuleDelete, Part.memories, thenOk, push]

@[simp] theorem applyStation_memories (f : Request → Station → Station) : (applyStation f p).memories = p.memories := by
  unfold applyStation
  split <;> simp

@[simp] theorem takeParams_memories (ps : Params) : (takeParams p ps).memories = p.memories := (recompute_memories _).trans rfl

@[simp] theorem applyParams_memories : (applyParams p).memories = p.memories := by
  unfold applyParams
  split <;> simp

@[simp] theorem relocate_memories (m : Move) : (relocate p m).memories = p.memories := by
  unfold relocate
  split <;> rfl

/-- What follows a writer's complete records writes neither memory (R10). -/
@[simp] theorem written_memories (w : Writer) : (written w p).memories = p.memories := by
  cases w with
  | formatMark => rfl
  | _ => simp [written]

@[simp] theorem snapshotClosed_memories : (snapshotClosed p).memories = p.memories := by
  unfold snapshotClosed
  split <;> rfl

@[simp] theorem snapshotItem_memories (items : List SnapItem) (count : Nat) : (snapshotItem items count p).memories = p.memories := by
  unfold snapshotItem
  split <;> simp

@[simp] theorem eraseNext_memories (us : List Nat) (why : EraseWhy) : (eraseNext us why p).memories = p.memories := by
  unfold eraseNext
  repeat' split
  all_goals simp

@[simp] theorem flushBad_memories : (flushBad p).memories = p.memories := by
  unfold flushBad
  split <;> rfl

@[simp] theorem placeImage_memories (second afterInline : Bool) : (placeImage second afterInline p).memories = p.memories := by
  have hplaced := p.store.placeRun_flash (pagesFor p.cat.buffer.length)
  unfold placeImage
  split
  · rfl
  · split <;> rename_i heq <;> rw [heq] at hplaced
    · exact (issue_memories ..).trans (congrArg (p.host, ·) hplaced)
    · dsimp only
      split <;> exact congrArg (p.host, ·) hplaced

@[simp] theorem chooseUnit_memories (why : MoveWhy) (eraseWhy : EraseWhy) : (chooseUnit why eraseWhy p).memories = p.memories := by
  have hpicked := p.store.pickUnit_flash (Config.unitCount + 1)
  unfold chooseUnit
  split <;> rename_i heq <;> rw [heq] at hpicked
  · exact congrArg (p.host, ·) hpicked
  · rename_i u s
    have hfilled : (if s.openUnit = some u then s.fillUnit u else s).flash = p.store.flash := by
      split <;> exact hpicked
    dsimp only
    generalize (if s.openUnit = some u then s.fillUnit u else s) = t at hfilled
    repeat' split
    all_goals exact congrArg (p.host, ·) hfilled

@[simp] theorem inlineTurn_memories : (inlineTurn p).memories = p.memories := by
  unfold inlineTurn
  repeat' split
  · rfl
  · rfl
  · exact (chooseUnit_memories ..).trans rfl

@[simp] theorem evacuate_memories (unit page : Nat) : (evacuate unit page p).memories = p.memories := by
  unfold evacuate
  repeat' split
  all_goals rfl

@[simp] theorem moveUnplaced_memories (ref : ImageRef) (second : Bool) (why : MoveWhy) (afterInline : Bool) :
    (moveUnplaced ref second why afterInline p).memories = p.memories := by
  unfold moveUnplaced
  repeat' split
  all_goals rfl

@[simp] theorem beginMove_memories (ref : ImageRef) (second : Bool) (why : MoveWhy) (afterInline : Bool) :
    (beginMove ref second why afterInline p).memories = p.memories := by
  unfold beginMove
  split
  · rfl
  · rename_i src _
    have hplaced := p.store.placeRun_flash src.run.pages
    split <;> rename_i heq <;> rw [heq] at hplaced
    · exact (issue_memories ..).trans (congrArg (p.host, ·) hplaced)
    · exact (moveUnplaced_memories ..).trans (congrArg (p.host, ·) hplaced)

@[simp] theorem abandonMove_memories (m : Move) : (abandonMove m p).memories = p.memories := by
  unfold abandonMove
  split <;> rfl

@[simp] theorem copyDone_memories (m : Move) : (copyDone m p).memories = p.memories := by
  unfold copyDone
  split <;> simp

@[simp] theorem readBackFailed_memories (e : Entry) (g : Generation) : (readBackFailed e g p).memories = p.memories := by
  unfold readBackFailed
  dsimp only
  split <;> rfl

@[simp] theorem readBackEnd_memories (code : Code) : (readBackEnd code p).memories = p.memories := by
  unfold readBackEnd
  cases p.cat.pin <;> rfl

@[simp] theorem formatEmpty_memories : (formatEmpty p).memories = p.memories := by
  unfold formatEmpty
  split
  · exact (recompute_memories _).trans rfl
  · exact (recompute_memories _).trans rfl

@[simp] theorem formatReady_memories : (formatReady p).memories = p.memories := (recompute_memories _).trans rfl

@[simp] theorem sweepOn_memories (running : List Nat) : (sweepOn running p).memories = p.memories := by
  unfold sweepOn
  dsimp only
  split
  · rfl
  · exact congrArg (p.host, ·) (Store.foldl_flash _ (fun t u => t.ask_flash _ _) _)

@[simp] theorem mountReady_memories : (mountReady p).memories = p.memories := by
  unfold mountReady
  rw [askScan_memories, settleStations_memories]
  rfl

/-! ## The unit's work -/

/-- No operation of the Catalogue Unit writes a memory: it asks a bank, and the end of what it has asked for writes. -/
@[simp] theorem workOp_memories (op : CuOp) : (workOp op p).memories = p.memories := by
  cases op with
  | write recs w => cases recs <;> simp [workOp]
  | formatWrite => rfl
  | snapshot | moveGivenUp ref | readBack page | finish code result =>
    simp only [workOp]
    split <;> simp
  | _ => simp [workOp]

@[simp] theorem cuRun_memories (n : Nat) : (cuRun n p).memories = p.memories :=
  cuRun_keeps (fun q => q.memories = p.memories) (fun op q hq => (workOp_memories q op).trans hq) (fun _ _ hq => hq) (fun _ hq => hq)
    (fun q hq => (reclaimTest_memories q).trans hq) (fun _ hq => hq) n p rfl

@[simp] theorem cuWork_memories : (cuWork p).memories = p.memories := by simp [cuWork]

end

end Sys2Proof.Machine
end

section
/-! The ends of the banks' operations, which program and erase the flash (R107 to R109). -/
namespace Sys2Proof.Machine

/-! ## The operations that write the flash -/

section
variable {s : Store}

theorem Store.pageProgrammed_wf (u page : Nat) (bytes : List Byte) (h : Mem.wf flashBlank s.flash = true) :
    Mem.wf flashBlank (s.pageProgrammed u page bytes).flash = true := Mem.wf_writeN _ _ h

theorem Store.slotProgrammed_wf (u slot : Nat) (bytes : List Byte) (h : Mem.wf flashBlank s.flash = true) :
    Mem.wf flashBlank (s.slotProgrammed u slot bytes).flash = true := Mem.wf_writeN _ _ h

theorem Store.unitErased_wf (u : Nat) (h : Mem.wf flashBlank s.flash = true) : Mem.wf flashBlank (s.unitErased u).flash = true :=
  Mem.wf_clear _ _ h

theorem Store.eraseFailed_wf (u : Nat) (erased : List Bool) (h : Mem.wf flashBlank s.flash = true) :
    Mem.wf flashBlank (s.eraseFailed u erased).flash = true := Mem.wf_eraseMixture _ _ h

end

/-! ## The outcomes -/

section
variable {p : Part}

theorem Part.Canonical.withStore {f : Store → Store} (h : p.Canonical)
    (hf : ∀ s : Store, Mem.wf flashBlank s.flash = true → Mem.wf flashBlank (f s).flash = true) : (p.withStore f).Canonical :=
  ⟨h.host, hf _ h.flash⟩

theorem Part.Canonical.hostWrite (a : Nat) (bs : List Byte) (h : p.Canonical) : (p.hostWrite a bs).Canonical :=
  ⟨Mem.wf_writeN bs a h.host, h.flash⟩

theorem Part.Canonical.hostStores (cells : List Host.Cell) (h : p.Canonical) : (p.hostStores cells).Canonical :=
  ⟨Mem.wf_apply cells h.host, h.flash⟩

/-- An outcome that the unit takes keeps the canonical form when the act it brings about does. -/
theorem cuResume_canonical {f : Part → Part} (hf : ∀ q : Part, q.Canonical → (f q).Canonical) (h : p.Canonical) :
    (cuResume p f).Canonical := by
  have hact : (f (p.withCat fun c => { c with await := none })).Canonical := hf _ (h.of_memories rfl)
  exact hact.of_memories (by simp [cuResume])

theorem programFailed_canonical (unit page : Nat) (left : List Byte) (next : CuOp) (h : p.Canonical) :
    (programFailed unit page left next p).Canonical := ⟨h.host, Store.pageProgrammed_wf unit page left h.flash⟩

theorem slotOutcome_canonical (u slot : Nat) (data : List Byte) (o : ProgOutcome) (recs : List JournalRecord) (num : Nat) (w : Writer)
    (h : p.Canonical) : (slotOutcome u slot data o recs num w p).Canonical := by
  cases o with
  | done => exact ⟨h.host, Store.slotProgrammed_wf u slot data h.flash⟩
  | failed left =>
    have hbad : (p.withStore fun s => (s.slotProgrammed u slot left).markBad u).Canonical :=
      h.withStore fun s => s.slotProgrammed_wf u slot left
    exact hbad.of_memories (putSlot_memories ..)

theorem ringOutcome_canonical (u : Nat) (o : EraseOutcome) (recs : List JournalRecord) (num : Nat) (w : Writer) (again : Bool)
    (h : p.Canonical) : (ringOutcome u o recs num w again p).Canonical := by
  cases o with
  | done => exact (h.withStore fun s => s.unitErased_wf u).of_memories (putSlot_memories ..)
  | failed erased =>
    have hfailed := h.withStore fun s => s.eraseFailed_wf u erased
    simp only [ringOutcome]
    split
    · exact hfailed.of_memories (putSlot_memories ..)
    · exact hfailed.of_memories rfl

theorem eraseOutcome_canonical (u : Nat) (o : EraseOutcome) (rest : List Nat) (why : EraseWhy) (h : p.Canonical) :
    (eraseOutcome u o rest why p).Canonical := by
  cases o with
  | done => exact (h.withStore fun s => s.unitErased_wf u).of_memories rfl
  | failed erased =>
    have hfailed := h.withStore fun s => s.eraseFailed_wf u erased
    simp only [eraseOutcome]
    split <;> exact hfailed.of_memories rfl

theorem sweepOutcome_canonical (u : Nat) (o : EraseOutcome) (running : List Nat) (h : p.Canonical) :
    (sweepOutcome u o running p).Canonical := by
  have hgo : ∀ q : Part, q.Canonical → ∀ left : List Nat, (if q.cat.badWaiting = [] then sweepOn left q
      else if left = [] then push [.flushBad, .mountSweep] q
      else q.withCat fun c => { c with await := some (.sweep left) }).Canonical := by
    intro q hq left
    repeat' split
    · exact hq.of_memories (sweepOn_memories ..)
    · exact hq.of_memories rfl
    · exact hq.of_memories rfl
  cases o with
  | done => exact hgo _ (h.withStore fun s => s.unitErased_wf u) _
  | failed erased =>
    have hfailed := h.withStore fun s => s.eraseFailed_wf u erased
    exact hgo (waitBad u (p.withStore fun s => s.eraseFailed u erased)) (hfailed.of_memories rfl) _

theorem programOutcome_canonical (unit page : Nat) (data : List Byte) (o : ProgOutcome) (run : PageRun) (i : Nat) (second : Bool)
    (h : p.Canonical) : (programOutcome unit page data o run i second p).Canonical := by
  cases o with
  | done =>
    have hdone := h.withStore fun s => s.pageProgrammed_wf unit page data
    simp only [programOutcome]
    split
    · exact hdone.of_memories (issue_memories ..)
    · exact hdone.of_memories rfl
  | failed left => exact programFailed_canonical _ _ _ _ h

theorem moveProgramOutcome_canonical (unit page : Nat) (data : List Byte) (o : ProgOutcome) (m : Move) (i : Nat) (h : p.Canonical) :
    (moveProgramOutcome unit page data o m i p).Canonical := by
  cases o with
  | done =>
    have hdone := h.withStore fun s => s.pageProgrammed_wf unit page data
    simp only [moveProgramOutcome]
    split
    · exact hdone.of_memories (issue_memories ..)
    · exact hdone.of_memories (copyDone_memories ..)
  | failed left => exact programFailed_canonical _ _ _ _ h

theorem moveReadOutcome_memories (unit page errors : Nat) (m : Move) (i : Nat) (p : Part) :
    (moveReadOutcome unit page errors m i p).memories = p.memories := by
  unfold moveReadOutcome
  split <;> simp

theorem readBackPage_canonical (page : Nat) (data : List Byte) (r : Request) (e : Entry) (g : Generation) (h : p.Canonical) :
    (readBackPage page data r e g p).Canonical := by
  have hwritten : ∀ a bs, ((p.hostWrite a bs).withCat fun c => { c with copy := c.copy ++ bs }).Canonical :=
    fun a bs => (h.hostWrite a bs).of_memories rfl
  unfold readBackPage
  dsimp only
  repeat' split
  · exact (hwritten _ _).of_memories rfl
  · exact (hwritten _ _).of_memories rfl
  · exact (hwritten _ _).of_memories (readBackFailed_memories ..)
  · exact h.of_memories rfl

theorem readBackOutcome_canonical (unit page errors i : Nat) (h : p.Canonical) :
    (readBackOutcome unit page errors i p).Canonical := by
  have hread : (p.withStore fun s => s.noteRead unit errors).Canonical := h.of_memories (by simp)
  unfold readBackOutcome
  dsimp only
  repeat' split
  · exact readBackPage_canonical _ _ _ _ _ hread
  · exact hread.of_memories (readBackFailed_memories ..)
  · exact hread
  · exact hread

theorem cuReadDone_canonical (unit page errors : Nat) (h : p.Canonical) : (cuReadDone unit page errors p).Canonical := by
  unfold cuReadDone
  split
  · exact cuResume_canonical (fun _ hq => hq.of_memories (moveReadOutcome_memories ..)) h
  · exact cuResume_canonical (fun _ hq => readBackOutcome_canonical (h := hq) ..) h
  · exact h

theorem cuProgramDone_canonical (unit page : Nat) (data : List Byte) (o : ProgOutcome) (h : p.Canonical) :
    (cuProgramDone unit page data o p).Canonical := by
  unfold cuProgramDone
  split
  · exact cuResume_canonical (fun _ hq => programOutcome_canonical (h := hq) ..) h
  · exact cuResume_canonical (fun _ hq => moveProgramOutcome_canonical (h := hq) ..) h
  · exact h

theorem cuSlotDone_canonical (unit slot : Nat) (data : List Byte) (o : ProgOutcome) (h : p.Canonical) :
    (cuSlotDone unit slot data o p).Canonical := by
  unfold cuSlotDone
  split
  · exact cuResume_canonical (fun _ hq => slotOutcome_canonical (h := hq) ..) h
  · exact h

theorem cuEraseDone_canonical (unit : Nat) (o : EraseOutcome) (h : p.Canonical) : (cuEraseDone unit o p).Canonical := by
  unfold cuEraseDone
  split
  · exact cuResume_canonical (fun _ hq => ringOutcome_canonical (h := hq) ..) h
  · exact cuResume_canonical (fun _ hq => eraseOutcome_canonical (h := hq) ..) h
  · exact cuResume_canonical (fun _ hq => sweepOutcome_canonical (h := hq) ..) h
  · exact h

end

end Sys2Proof.Machine
end

section
/-! The memories through the line, the lanes, the requests and the ends of the banks' operations. -/
namespace Sys2Proof.Machine

section
variable (p : Part)

/-! ## The line -/

@[simp] theorem closeLine_memories : (closeLine p).memories = p.memories := by
  unfold closeLine
  repeat' split
  all_goals exact (recompute_memories _).trans rfl

/-- A line request writes neither memory (R78). -/
@[simp] theorem lineRequest_memories (r : Request) : (lineRequest p r).memories = p.memories := by
  have hopen : ∀ G window, (openLine p G window).memories = p.memories := fun G window => recompute_memories _
  have habandon : (abandonLine p).memories = p.memories := recompute_memories _
  have hheld : ∀ n held, (recompute (holdStation p n held)).memories = p.memories := fun _ _ => recompute_memories _
  have hrestored : ∀ n, (restoreStation p n).memories = p.memories := fun _ => recompute_memories _
  unfold lineRequest lineOpen lineClose lineAbandon lineHoldOut lineRestore completeLine
  dsimp only
  repeat' split
  all_goals simp [hopen, habandon, hheld, hrestored]

/-! ## The lanes -/

@[simp] theorem recordVerdict_memories (s : LaneSetup) (t : Tally) : (recordVerdict p s t).memories = p.memories := by
  simp [Part.memories]

@[simp] theorem recordOverride_memories (s : LaneSetup) : (recordOverride p s).memories = p.memories := by
  simp [Part.memories, recordOverride]

@[simp] theorem releasePin_memories (l : Lane) : (releasePin p l).memories = p.memories := by
  unfold releasePin
  split
  · rfl
  · exact p.setLane_memories l _

@[simp] theorem checkNotice_memories (n : Notice) : (checkNotice p n).1.memories = p.memories := by
  unfold checkNotice
  repeat' split
  all_goals simp

@[simp] theorem admitNotice_memories (n : Notice) : (admitNotice p n).1.memories = p.memories := by
  unfold admitNotice
  dsimp only
  split <;> simp

@[simp] theorem closeLane_memories (l : Lane) (n : Notice) (sum : Summary) : (closeLane p l n sum).memories = p.memories := by
  unfold closeLane endLane
  split <;> simp

@[simp] theorem captureFails_memories (l : Lane) : (captureFails p l).memories = p.memories := by
  unfold captureFails
  dsimp only
  split <;> simp

@[simp] theorem openLane_memories (l : Lane) (r : Request) : (openLane p l r).memories = p.memories := by
  unfold openLane
  repeat' split
  · simp [answerEarly, endLane]
  · simp [endAtOpening]
  · exact p.setLane_memories l _

theorem takeCheck_memories (kind : Kind) : (takeCheck p kind).memories = p.memories := by
  unfold takeCheck
  repeat' split
  · exact (openLane_memories ..).trans ((askScan_memories _).trans rfl)
  all_goals rfl

@[simp] theorem askPage_memories (l : Lane) (g : Generation) (page : Nat) : (askPage p l g page).memories = p.memories := by
  simp [askPage]

@[simp] theorem integrityFails_memories (l : Lane) (x : LaneRegs) (r : Request) (s : LaneSetup) (c : Nat) :
    (integrityFails p l x r s c).memories = p.memories := by
  obtain ⟨es, h⟩ := reportAtOnce_frame { uid := s.entry, number := s.gen.number } p
  unfold integrityFails
  rw [closeLane_memories, Part.raise_memories, h]
  rfl

@[simp] theorem comparisonDone_memories (l : Lane) (x : LaneRegs) (r : Request) (s : LaneSetup) (base : List Byte) :
    (comparisonDone p l x r s base).memories = p.memories := by
  unfold comparisonDone
  dsimp only
  split <;> simp

@[simp] theorem laneReadDone_memories (l : Lane) (unit page errors : Nat) :
    (laneReadDone l unit page errors p).memories = p.memories := by
  unfold laneReadDone
  dsimp only
  repeat' split
  all_goals simp

/-! ## The catalogue requests -/

@[simp] theorem takeHead_memories (r : Request) (rest : List Request) : (takeHead p r rest).memories = p.memories := by
  simp [takeHead]

@[simp] theorem enterFormatting_memories : (enterFormatting p).memories = p.memories := by
  unfold enterFormatting
  dsimp only
  rw [recompute_memories]
  split <;> rfl

theorem beginFormat_memories (r : Request) : (beginFormat r p).memories = p.memories := by
  unfold beginFormat
  split
  · rfl
  · rw [push_memories, Part.withCat_memories, Part.withStore_memories (f := takeFuses) fun _ => rfl, enterFormatting_memories]

theorem enrolRead_memories (r : Request) (image : List Byte) : (enrolRead r image p).memories = p.memories := by
  unfold enrolRead
  dsimp only
  split <;> rfl

theorem rulesRead_memories (r : Request) (array : List Byte) : (rulesRead r array p).memories = p.memories := by
  unfold rulesRead
  dsimp only
  split <;> rfl

@[simp] theorem beginOwn_memories (turn : Turn) (work : CuWork) (ops : List CuOp) :
    (beginOwn p turn work ops).memories = p.memories := by
  unfold beginOwn
  split <;> simp

@[simp] theorem takeReport_memories : (takeReport p).memories = p.memories := by
  unfold takeReport
  repeat' split
  all_goals rfl

end
end Sys2Proof.Machine
end

section
/-! The canonical form through RESET#, the port, the requests, mount and each command. -/
namespace Sys2Proof.Machine

section
variable {p : Part}

theorem ite_canonical {c : Prop} [Decidable c] {q : Part} (hq : q.Canonical) (h : p.Canonical) : (if c then q else p).Canonical := by
  split
  · exact hq
  · exact h

/-! ## RESET# -/

/-- Whatever is left of a torn operation, the flash stays in canonical form (R106, R109, R125). -/
theorem tearOne_wf (t : Torn) (job : Option BankJob) {s : Store} (h : Mem.wf flashBlank s.flash = true) :
    Mem.wf flashBlank (tearOne t job s).flash = true := by
  unfold tearOne
  split
  · exact s.pageProgrammed_wf _ _ _ h
  · exact s.pageProgrammed_wf _ _ _ h
  · exact s.slotProgrammed_wf _ _ _ h
  · exact s.slotProgrammed_wf _ _ _ h
  · exact Mem.wf_eraseMixture _ _ h
  · exact s.unitErased_wf _ h
  · exact h

theorem resetPart_canonical (torn : TornOps) (h : p.Canonical) : (resetPart torn p).Canonical :=
  ⟨h.host, tearOne_wf _ _ (tearOne_wf _ _ h.flash)⟩

/-! ## The acts of the port -/

@[simp] theorem noteAsk_memories (e : Option BusEvent) (p : Part) : (noteAsk e p).memories = p.memories := by
  unfold noteAsk
  split <;> simp

@[simp] theorem advanceCursor_memories (p : Part) : (advanceCursor p).memories = p.memories := by
  unfold advanceCursor
  split <;> rfl

@[simp] theorem wipeDone_memories (b : Nat) (p : Part) : (wipeDone b p).memories = p.memories := by
  unfold wipeDone
  dsimp only
  split <;> simp

@[simp] theorem completionCounted_memories (c : Completion) (p : Part) : (completionCounted c p).memories = p.memories := by
  unfold completionCounted
  dsimp only
  split <;> rfl

@[simp] theorem giveToOwner_memories (p : Part) (r : Request) : (giveToOwner p r).memories = p.memories := by
  unfold giveToOwner
  split
  · rfl
  · rfl
  · exact lineRequest_memories p r

@[simp] theorem takeAct_memories (sheet : List Byte) (kind : Kind) (p : Part) : (takeAct sheet kind p).memories = p.memories := by
  simp [takeAct]

end

/-! ## The transfers -/

section
variable {b : Bus}

theorem busCanonical_heed (h : b.part.Canonical) : b.heed.part.Canonical := by
  unfold Bus.heed
  split
  · exact h.of_memories rfl
  · exact h

/-- The host writes its own memory before a transfer. -/
theorem busCanonical_settle (h : b.part.Canonical) : b.settle.part.Canonical :=
  (h.hostStores b.nextXfer.host).of_memories (noteAsk_memories ..)

theorem busCanonical_over (e : Option BusEvent) (went : Bool) (h : b.part.Canonical) : (b.over e went).part.Canonical := by
  unfold Bus.over
  repeat' split
  · exact resetPart_canonical _ h
  all_goals exact h.of_memories rfl

/-- Before a transfer a disable that waits is taken. -/
theorem busCanonical_heeded (h : b.part.Canonical) : (if b.up then b.heed else b).part.Canonical := by
  split
  · exact busCanonical_heed h
  · exact h

theorem busCanonical_read (a n : Nat) (h : b.part.Canonical) : (b.read a n).2.part.Canonical := by
  have hb := busCanonical_heeded h
  unfold Bus.read
  dsimp only
  generalize (if b.up = true then b.heed else b) = d at hb ⊢
  split
  · exact busCanonical_over _ _ (busCanonical_settle hb)
  · exact hb

theorem foldl_hostWrite_canonical (pieces : List (Nat × List Byte)) {p : Part} (h : p.Canonical) :
    (pieces.foldl (fun q x => q.hostWrite x.1 x.2) p).Canonical := by
  induction pieces generalizing p with
  | nil => exact h
  | cons x xs ih => exact ih (h.hostWrite x.1 x.2)

/-- A write that has reached memory has written its pieces (R151, R154). -/
theorem busCanonical_write (pieces : List (Nat × List Byte)) (h : b.part.Canonical) : (b.write pieces).part.Canonical := by
  have hb := busCanonical_heeded h
  unfold Bus.write
  dsimp only
  generalize (if b.up = true then b.heed else b) = d at hb ⊢
  split
  · refine busCanonical_over _ _ ?_
    split
    · exact foldl_hostWrite_canonical _ (busCanonical_settle hb)
    · exact busCanonical_settle hb
  · exact hb

/-- An act of the port writes no memory: its transfers do. -/
theorem busCanonical_act {f : Part → Part} (hf : ∀ p, (f p).memories = p.memories) (h : b.part.Canonical) :
    (b.act f).part.Canonical := by
  unfold Bus.act
  split
  · exact h.of_memories (hf _)
  · exact h

theorem busCanonical_writeItems (items : List StatusItem) (h : b.part.Canonical) : (b.writeItems items).part.Canonical :=
  busCanonical_write _ (busCanonical_act (fun _ => rfl) (busCanonical_write _ h))

theorem busCanonical_flushStatus (h : b.part.Canonical) : b.flushStatus.part.Canonical := by
  unfold Bus.flushStatus
  split
  · exact busCanonical_writeItems _ h
  · exact h

theorem busCanonical_readEach (as : List Nat) (h : b.part.Canonical) : (b.readEach as).2.part.Canonical := by
  induction as generalizing b with
  | nil => exact h
  | cons a as ih => exact ih (busCanonical_read a 1 h)

theorem busCanonical_foldl {α : Type} {f : Bus → α → Bus} (hf : ∀ c x, c.part.Canonical → (f c x).part.Canonical)
    (xs : List α) (h : b.part.Canonical) : (xs.foldl f b).part.Canonical := by
  induction xs generalizing b with
  | nil => exact h
  | cons x xs ih => exact ih (hf b x h)

theorem busCanonical_wipeCheck (bundle : Nat) (h : b.part.Canonical) : (b.wipeCheck bundle).part.Canonical := by
  unfold Bus.wipeCheck
  split
  · have hread := busCanonical_readEach (sheetNumbers.map (b.part.port.sheetAddress bundle)) h
    dsimp only
    split
    · exact busCanonical_act (wipeDone_memories bundle) (busCanonical_foldl (fun _ _ hc => busCanonical_write _ hc) _ hread)
    · exact hread
  · exact h

/-- A completion is written item by item, each where it has one (R148). -/
theorem busCanonical_writeCompletion (c : Completion) {also : Part → Part} (ha : ∀ p, (also p).memories = p.memories)
    (h : b.part.Canonical) : (b.writeCompletion c also).part.Canonical := by
  have hitem : ∀ (d : Bus) (address : Nat) (item : Option (List Byte)), d.part.Canonical →
      (match item with
        | some bytes => d.write [(address, bytes)]
        | none => d).part.Canonical := by
    intro d address item hd
    cases item with
    | none => exact hd
    | some bytes => exact busCanonical_write _ hd
  unfold Bus.writeCompletion
  split
  · exact busCanonical_wipeCheck _ (busCanonical_act (fun p => (ha _).trans (completionCounted_memories c p))
      (busCanonical_write _ (busCanonical_write _ (hitem _ _ c.findings (hitem _ _ c.result (busCanonical_flushStatus h))))))
  · exact h

theorem busCanonical_nextCompletion (h : b.part.Canonical) : b.nextCompletion.part.Canonical := by
  unfold Bus.nextCompletion
  split
  · exact h
  · exact busCanonical_writeCompletion _ (fun _ => rfl) (h.of_memories rfl)

theorem busCanonical_drain (n : Nat) (h : b.part.Canonical) : (Bus.drain n b).part.Canonical := by
  induction n generalizing b with
  | zero => exact h
  | succ n ih =>
    unfold Bus.drain
    split
    · exact ih (busCanonical_nextCompletion h)
    · exact h

theorem busCanonical_answer (code : Code) (quiet : Bool) (h : b.part.Canonical) : (b.answer code quiet).part.Canonical :=
  busCanonical_writeCompletion _ advanceCursor_memories (busCanonical_drain _ h)

/-! ## The scan -/

theorem busCanonical_posted (sheet : List Byte) (h : b.part.Canonical) : (b.posted sheet).1.part.Canonical := by
  unfold Bus.posted
  repeat' split
  · exact busCanonical_answer _ _ h
  · exact busCanonical_act (takeAct_memories sheet _) (busCanonical_write _ h)
  · exact busCanonical_act (fun _ => rfl) h

theorem busCanonical_unposted (state : List Byte) (h : b.part.Canonical) : (b.unposted state).1.part.Canonical := by
  unfold Bus.unposted
  split
  · exact busCanonical_act (fun _ => rfl) h
  · exact busCanonical_answer _ _ h

theorem busCanonical_sheet (h : b.part.Canonical) : b.sheet.1.part.Canonical := by
  have hstate := busCanonical_read (b.part.port.sheetAddress b.part.port.cursorB b.part.port.cursorS) 1 h
  have hcopy := busCanonical_read (b.part.port.sheetAddress b.part.port.cursorB b.part.port.cursorS) 256 hstate
  unfold Bus.sheet
  dsimp only
  repeat' split
  · exact busCanonical_posted _ hcopy
  · exact busCanonical_unposted _ hcopy
  · exact hcopy
  · exact busCanonical_unposted _ hstate
  · exact hstate

theorem busCanonical_sheets (n : Nat) (h : b.part.Canonical) : (Bus.sheets n b).part.Canonical := by
  induction n generalizing b with
  | zero => exact h
  | succ n ih =>
    unfold Bus.sheets
    dsimp only
    repeat' split
    · exact ih (busCanonical_sheet h)
    · exact busCanonical_sheet h
    · exact busCanonical_act (fun _ => rfl) h
    · exact h

theorem busCanonical_scanOnce (h : b.part.Canonical) : b.scanOnce.part.Canonical :=
  busCanonical_sheets _ (busCanonical_foldl (fun _ _ hc => busCanonical_wipeCheck _ hc) _ h)

theorem busCanonical_scans (n : Nat) (h : b.part.Canonical) : (Bus.scans n b).part.Canonical := by
  induction n generalizing b with
  | zero => exact h
  | succ n ih =>
    unfold Bus.scans
    split
    · exact ih (busCanonical_scanOnce (h.of_memories rfl))
    · exact h

end

/-! ## The port's commands -/

section
variable {p : Part}

theorem makeScan_canonical (io : List Xfer) (h : p.Canonical) : (makeScan p io).Canonical :=
  ite_canonical (busCanonical_heed (busCanonical_scans (b := Bus.start p io) _ h)) h

/-- A line request is posted by the host's own write (log 13). -/
theorem takeLineSheet_canonical (kind : Kind) (head : SheetHead) (params : List (Nat × List Byte)) (h : p.Canonical) :
    (takeLineSheet p kind head params).Canonical :=
  ite_canonical (busCanonical_heed (busCanonical_posted (b := Bus.start (p.hostWrite _ _) []) _ (h.hostWrite _ _))) h

theorem writeOldestCompletion_canonical (io : List Xfer) (h : p.Canonical) : (writeOldestCompletion p io).Canonical :=
  ite_canonical (busCanonical_heed (busCanonical_nextCompletion (b := Bus.start p io) h)) h

theorem writeStatus_canonical (io : List Xfer) (h : p.Canonical) : (writeStatus p io).Canonical :=
  ite_canonical (busCanonical_heed (busCanonical_flushStatus (b := Bus.start p io) h)) h

theorem enablePort_canonical (io : List Xfer) (h : p.Canonical) : (enablePort p io).Canonical :=
  busCanonical_heed (busCanonical_act (fun _ => (askScan_memories _).trans rfl)
    (busCanonical_writeItems (b := Bus.start (handOver (beginEnablement p)) io) _ (h.of_memories rfl)))

theorem writeExctl_canonical (v : Reg) (io : List Xfer) (h : p.Canonical) : (writeExctl p v io).Canonical := by
  unfold writeExctl
  dsimp only
  repeat' split
  · exact enablePort_canonical io (h.of_memories rfl)
  all_goals exact h.of_memories rfl

theorem writeExbase_canonical (high : Bool) (v : Reg) (h : p.Canonical) : (writeExbase p high v).Canonical := by
  unfold writeExbase
  repeat' split
  all_goals exact h.of_memories rfl

theorem writeRegister_canonical (w : RegWrite) (io : List Xfer) (h : p.Canonical) : (writeRegister p w io).Canonical := by
  refine ite_canonical ?_ h
  split
  · exact writeExbase_canonical _ _ h
  · exact writeExbase_canonical _ _ h
  · exact writeExctl_canonical _ _ h
  · exact h.of_memories (askScan_memories p)
  all_goals exact h.of_memories rfl

/-! ## The catalogue requests -/

theorem whenPassed_canonical (c : Option Code) {go : Part → Part} (hgo : ∀ q : Part, q.Canonical → (go q).Canonical)
    (h : p.Canonical) : (whenPassed c p go).Canonical := by
  cases c with
  | none => exact hgo p h
  | some c => exact h.of_memories rfl

/-- A request begun keeps the canonical form when its own part does (R9). -/
theorem beginHead_canonical (wanted : Request → Bool) {go : Request → Part → Part}
    (hgo : ∀ r (q : Part), q.Canonical → (go r q).Canonical) (h : p.Canonical) : (beginHead p wanted go).Canonical := by
  unfold beginHead
  split
  · exact h
  · rename_i r rest _
    have htaken : (takeHead p r rest).Canonical := h.of_memories (takeHead_memories ..)
    exact ite_canonical ((whenPassed_canonical _ (hgo r) htaken).of_memories (cuWork_memories _)) h

/-- A request whose own part, its tests passed, writes no memory. -/
theorem whenPassed_canonical_of_memories (c : Option Code) {go : Part → Part} (hgo : ∀ q, (go q).memories = q.memories)
    (h : p.Canonical) : (whenPassed c p go).Canonical := whenPassed_canonical c (fun q hq => hq.of_memories (hgo q)) h

theorem beginCommit_canonical (r : Request) (h : p.Canonical) : (beginCommit r p).Canonical := by
  refine whenPassed_canonical_of_memories _ (fun q => ?_) h
  dsimp only
  split <;> rfl

theorem beginReadBaseline_canonical (r : Request) (h : p.Canonical) : (beginReadBaseline r p).Canonical := by
  refine whenPassed_canonical_of_memories _ (fun q => ?_) h
  repeat' split
  all_goals rfl

theorem beginRuleLoad_canonical (r : Request) (h : p.Canonical) : (beginRuleLoad r p).Canonical := by
  refine whenPassed_canonical_of_memories _ (fun q => ?_) h
  dsimp only
  split <;> rfl

theorem writeListing_canonical (r : Request) (i : Nat) (out : List Entry) (h : p.Canonical) :
    (writeListing p r i out).1.Canonical := by
  induction out generalizing p i with
  | nil => exact h
  | cons e out ih =>
    unfold writeListing
    dsimp only
    split
    · exact ih _ (h.hostWrite _ _)
    · exact h

/-- The records of a listing are the one thing a LIST writes (R21). -/
theorem goOnListing_canonical (upTo : Option Nat) (i : Nat) (r : Request) (h : p.Canonical) : (goOnListing upTo i r p).Canonical := by
  have hlisted := fun out => writeListing_canonical r i out h
  unfold goOnListing
  dsimp only
  repeat' split
  all_goals exact (hlisted _).of_memories rfl

theorem carryOnList_canonical (upTo : Option Nat) (h : p.Canonical) : (carryOnList upTo p).Canonical := by
  unfold carryOnList
  split
  · exact ite_canonical (cuResume_canonical (fun _ hq => goOnListing_canonical (h := hq) ..) h) h
  · exact beginHead_canonical _ (fun r _ => whenPassed_canonical _ fun _ hq => goOnListing_canonical (h := hq) ..) h

/-- The host writes its own memory before the end of a read (R13, R32). -/
theorem hostReadDone_canonical (host : List Host.Cell) (h : p.Canonical) : (hostReadDone host p).Canonical := by
  unfold hostReadDone
  split
  · refine ite_canonical (cuResume_canonical (fun q hq => ?_) h) h
    have harrived := hq.hostStores host
    dsimp only
    repeat' split
    · exact harrived.of_memories (rulesRead_memories ..)
    · exact harrived.of_memories (enrolRead_memories ..)
    · exact harrived.of_memories rfl
  · exact h

theorem catalogueBufferFails_canonical (h : p.Canonical) : (catalogueBufferFails p).Canonical := by
  unfold catalogueBufferFails
  repeat' split
  · exact cuResume_canonical (fun _ hq => hq.of_memories rfl) h
  · exact cuResume_canonical (fun _ hq => hq.of_memories rfl) h
  · exact h.of_memories rfl
  · exact h
  · exact h

theorem bufferFails_canonical (u : BufferUser) (h : p.Canonical) : (bufferFails u p).Canonical := by
  refine ite_canonical ?_ h
  cases u with
  | lane l => exact h.of_memories (captureFails_memories ..)
  | catalogue => exact catalogueBufferFails_canonical h

/-- The host writes its own memory before the last captured byte (R67). -/
theorem captureDone_canonical (l : Lane) (host : List Host.Cell) (h : p.Canonical) : (captureDone p l host).Canonical := by
  unfold captureDone
  dsimp only
  repeat' split
  · exact (h.hostStores host).of_memories (by simp)
  · exact (h.hostStores host).of_memories (captureFails_memories ..)
  · exact h
  · exact h

/-! ## The ends of the banks' operations -/

theorem finishHead_canonical (b : Bank) (h : p.Canonical) : (finishHead p b).Canonical := h.of_memories (by simp [finishHead])

theorem endPageRead_canonical (b : Bank) (errors : Nat) (h : p.Canonical) : (endPageRead b errors p).Canonical := by
  have hhead := finishHead_canonical b h
  unfold endPageRead
  split
  · exact ite_canonical (hhead.of_memories (laneReadDone_memories ..)) h
  · exact ite_canonical (cuReadDone_canonical (h := hhead) ..) h
  · exact h

theorem endPageProgram_canonical (b : Bank) (o : ProgOutcome) (h : p.Canonical) : (endPageProgram b o p).Canonical := by
  unfold endPageProgram
  split
  · exact ite_canonical (cuProgramDone_canonical (h := finishHead_canonical b h) ..) h
  · exact h

theorem endSlotProgram_canonical (b : Bank) (o : ProgOutcome) (h : p.Canonical) : (endSlotProgram b o p).Canonical := by
  unfold endSlotProgram
  split
  · exact ite_canonical (cuSlotDone_canonical (h := finishHead_canonical b h) ..) h
  · exact h

theorem endErase_canonical (b : Bank) (o : EraseOutcome) (h : p.Canonical) : (endErase b o p).Canonical := by
  unfold endErase
  split
  · exact ite_canonical (cuEraseDone_canonical (h := finishHead_canonical b h) ..) h
  · exact h

/-! ## Mount -/

@[simp] theorem noteMountReads_flash (env : MountEnv) (s : Store) : (noteMountReads env s).flash = s.flash :=
  s.foldl_flash (fun t r => by split <;> simp) env.reads

@[simp] theorem noteImageReads_flash (env : MountEnv) (s : Store) (x : ImageSpan) : (noteImageReads env s x).flash = s.flash :=
  s.foldl_flash (fun t _ => t.noteRead_flash _ _) x.run.all

@[simp] theorem countLive_memories (p : Part) : (countLive p).memories = p.memories :=
  Part.withStore_memories fun s => s.foldl_flash (fun t _ => t.addLive_flash _ _) (images p)

/-- The items rebuilt are read from the flash and counted, which writes nothing (R135). -/
theorem rebuild_memories (env : MountEnv) (R : Nat) (x : Replay) (p : Part) : (rebuild env R x p).memories = p.memories := by
  have hread : ((x.sets.filterMap id).foldl (fun s img => noteImageReads env s img.span)
      (markListed x.bad { p.store with recordSize := some R })).flash = p.store.flash :=
    Store.foldl_flash _ (fun t (img : SetImage) => noteImageReads_flash env t img.span) _
  unfold rebuild
  dsimp only
  rw [countLive_memories]
  split <;> exact congrArg (p.host, ·) hread

theorem mountBegin_memories (env : MountEnv) (p : Part) : (mountBegin env p).memories = p.memories := by
  have hread := congrArg (p.host, ·) (noteMountReads_flash env p.store)
  unfold mountBegin
  dsimp only
  split
  · exact hread
  · rw [Part.withCat_memories]
    split
    · exact (rebuild_memories ..).trans hread
    · exact (rebuild_memories ..).trans hread

theorem answerOne_canonical (a : Answers) (b : Bank) (op : BankOp) (h : p.Canonical) : (answerOne a b op p).1.Canonical := by
  have hhead := finishHead_canonical b h
  cases op with
  | eraseUnit u => exact cuEraseDone_canonical u _ hhead
  | programSlot u m data => exact cuSlotDone_canonical u m data _ hhead
  | programPage | readPage => exact hhead

theorem mount_canonical (env : MountEnv) (h : p.Canonical) : (mount env p).1.Canonical := by
  have hbegun : (mountBegin env p).Canonical := h.of_memories (mountBegin_memories env p)
  have hdriven := mountDrive_keeps Part.Canonical (fun a b op _ => answerOne_canonical a b op) mountBound
    { erases := env.erases, slots := env.slots, order := env.order, cut := env.cut } _
    (ite_canonical (c := (mountBegin env p).cat.work = .mount) (hbegun.of_memories (cuRun_memories _ Config.workBound)) hbegun)
  unfold mount
  dsimp only
  generalize mountDrive mountBound _ _ = driven at hdriven ⊢
  split
  · exact hdriven
  · exact hdriven.of_memories (by simp)

/-! ## RESET# and the supplies as commands -/

theorem releaseReset_canonical (env : MountEnv) (h : p.Canonical) : (releaseReset env p).Canonical := by
  refine ite_canonical ?_ h
  have hmounted := mount_canonical env (p := { p with
    pins := { p.pins with resetLow := false }, line := { p.line with seconds := 0 }, key := { p.key with running := true } })
    (h.of_memories rfl)
  dsimp only
  split
  · exact resetPart_canonical _ hmounted
  · exact hmounted

theorem assertReset_canonical (low : ResetLow) (torn : TornOps) (h : p.Canonical) : (assertReset low torn p).Canonical := by
  have hreset := resetPart_canonical torn h
  cases low with
  | powerOn =>
    simp only [assertReset]
    split
    · exact h
    · exact hreset.of_memories rfl
  | pulse ns taken => exact ite_canonical hreset h

theorem losePower_canonical (torn : TornOps) (h : p.Canonical) : (losePower torn p).Canonical :=
  ite_canonical ((resetPart_canonical torn h).of_memories rfl) h

theorem exchangeFails_canonical (h : p.Canonical) : (exchangeFails p).Canonical := ite_canonical (h.of_memories rfl) h

theorem readTimesOut_canonical (t : TimeoutAt) (h : p.Canonical) : (readTimesOut t p).Canonical := by
  cases t with
  | exchange => exact exchangeFails_canonical h
  | buffer u => exact bufferFails_canonical u h

end

/-! ## The key switch and time -/

theorem ite_memories {c : Prop} [Decidable c] {p q : Part} (hq : q.memories = p.memories) :
    (if c then q else p).memories = p.memories := by
  split
  · exact hq
  · rfl

theorem changeKeysw_memories (level : Bool) (p : Part) : (changeKeysw level p).memories = p.memories := by
  unfold changeKeysw
  dsimp only
  repeat' split
  all_goals rfl

theorem debounceExpires_memories (p : Part) : (debounceExpires p).memories = p.memories := by
  unfold debounceExpires
  dsimp only
  repeat' split
  all_goals rfl

theorem windowExpires_memories (p : Part) : (windowExpires p).memories = p.memories := by
  have hexpired : (expireWindow p).memories = p.memories := recompute_memories _
  unfold windowExpires
  split
  · exact ite_memories hexpired
  · exact ite_memories hexpired
  · rfl

/-! ## The commands -/

/-- A command keeps the canonical form when its effect on the part does. -/
theorem apply_canonical {s t : State} {f : Part → Part} (hs : s.part.Canonical) (h : s.apply f = .next t)
    (hf : ∀ p : Part, p.Canonical → (f p).Canonical) : t.part.Canonical := by
  cases h
  exact hf _ hs

/-- A command that writes no memory keeps the canonical form. -/
theorem apply_canonical_of_memories {s t : State} {f : Part → Part} (hs : s.part.Canonical) (h : s.apply f = .next t)
    (hf : ∀ p : Part, (f p).memories = p.memories) : t.part.Canonical := apply_canonical hs h fun p hp => hp.of_memories (hf p)

/-- A request whose own part, its tests passed, writes no memory keeps the canonical form. -/
theorem apply_canonical_of_request {s t : State} {wanted : Request → Bool} {go : Request → Part → Part} (hs : s.part.Canonical)
    (h : (s.apply fun p => beginHead p wanted go) = .next t) (hgo : ∀ r (q : Part), q.Canonical → (go r q).Canonical) :
    t.part.Canonical := apply_canonical hs h fun _ => beginHead_canonical wanted hgo

/-- Every command keeps the canonical form of both memories. -/
theorem exec_canonical {i : Instr} {s t : State} (hs : s.part.Canonical) (h : exec i s = .next t) : t.part.Canonical := by
  cases i with
  | resetAssert low torn => exact apply_canonical hs h fun _ => assertReset_canonical low torn
  | resetRelease env => exact apply_canonical hs h fun _ => releaseReset_canonical env
  | pcieLinkReset | busMasteringSwitch => exact apply_canonical_of_memories hs h fun _ => rfl
  | powerLoss torn => exact apply_canonical hs h fun _ => losePower_canonical torn
  | exchangeTransferFault why => exact apply_canonical hs h fun _ => exchangeFails_canonical
  | readCompletionTimeout what => exact apply_canonical hs h fun _ => readTimesOut_canonical what
  | bufferTransferFailure user => exact apply_canonical hs h fun _ => bufferFails_canonical user
  | exbaseWrite high value => exact apply_canonical hs h fun _ hp => ite_canonical (writeExbase_canonical high value hp) hp
  | exctlConfig value io => exact apply_canonical hs h fun _ hp => ite_canonical (writeExctl_canonical value io hp) hp
  | portEnable count interval io => exact apply_canonical hs h fun _ hp => ite_canonical (writeExctl_canonical _ io hp) hp
  | portDisable count interval => exact apply_canonical hs h fun _ hp => ite_canonical (writeExctl_canonical _ [] hp) hp
  | wake value => exact apply_canonical_of_memories hs h fun p => ite_memories (askScan_memories p)
  | causeClear | causecfgWrite => exact apply_canonical_of_memories hs h fun _ => ite_memories rfl
  | registerWriteOther w => exact apply_canonical hs h fun _ => writeRegister_canonical w []
  | scanTimerTick => exact apply_canonical_of_memories hs h fun _ => ite_memories ((askScan_memories _).trans rfl)
  | scan io => exact apply_canonical hs h fun _ => makeScan_canonical io
  | completionWrite io => exact apply_canonical hs h fun _ => writeOldestCompletion_canonical io
  | statusUpdate io => exact apply_canonical hs h fun _ => writeStatus_canonical io
  | keyswChange level => exact apply_canonical_of_memories hs h (changeKeysw_memories level)
  | keyswDebounceExpiry => exact apply_canonical_of_memories hs h debounceExpires_memories
  | secondsTick => exact apply_canonical_of_memories hs h fun _ => ite_memories rfl
  | windowExpiry => exact apply_canonical_of_memories hs h windowExpires_memories
  | stalenessExpiry key => exact apply_canonical_of_memories hs h fun _ => ite_memories (recompute_memories _)
  | openChangeover | closeChangeover | abandonChangeover | holdOut | restore =>
    exact apply_canonical hs h fun _ => takeLineSheet_canonical _ _ _
  | enrol | discard | revert | retire | clearPeaks | ruleSetDelete | stationDefine | stationUndefine | paramSet =>
    exact apply_canonical_of_request hs h fun _ _ => whenPassed_canonical_of_memories _ fun _ => rfl
  | commit => exact apply_canonical_of_request hs h fun r _ => beginCommit_canonical r
  | readBaseline => exact apply_canonical_of_request hs h fun r _ => beginReadBaseline_canonical r
  | ruleLoad => exact apply_canonical_of_request hs h fun r _ => beginRuleLoad_canonical r
  | formatStore => exact apply_canonical_of_request hs h fun r q hq => hq.of_memories (beginFormat_memories q r)
  | list upTo => exact apply_canonical hs h fun _ => carryOnList_canonical upTo
  | persistenceMarkWrite | erasePendingUnits | reclaimStep | snapshot =>
    exact apply_canonical_of_memories hs h fun _ => beginOwn_memories ..
  | damagedReport => exact apply_canonical_of_memories hs h takeReport_memories
  | check | admission => exact apply_canonical_of_memories hs h fun _ => takeCheck_memories ..
  | captureComplete lane host => exact apply_canonical hs h fun _ => captureDone_canonical lane host
  | pageReadDone bank errors => exact apply_canonical hs h fun _ => endPageRead_canonical bank errors
  | pageProgramDone bank outcome => exact apply_canonical hs h fun _ => endPageProgram_canonical bank outcome
  | slotProgramDone bank outcome => exact apply_canonical hs h fun _ => endSlotProgram_canonical bank outcome
  | eraseDone bank outcome => exact apply_canonical hs h fun _ => endErase_canonical bank outcome
  | enrolmentBufferReadDone host => exact apply_canonical hs h fun _ => hostReadDone_canonical host

/-- Settles O5: every command keeps both memories in canonical form, and a step is one command or none. -/
theorem memoriesStayCanonical : Obligations.MemoriesStayCanonical := by
  intro s t hs h
  rcases step_cases h with ⟨-, rfl⟩ | ⟨c, cs, -, hc⟩
  · exact hs
  · exact (canonical_iff t).1 (exec_canonical (s := { s with pending := cs }) ((canonical_iff s).2 hs) hc)

end Sys2Proof.Machine
end

section
/-! A reclaim step that moves an image (O55), and the ends of a page program and of an erase between requests (O60). -/
namespace Sys2Proof.Machine

/-! ## The turn of the unit's own work -/

/-- Whatever it is the turn of, nothing is awaited. -/
theorem await_none_of_turn {p : Part} {turn : Turn} (h : cuTurn p = turn) (hne : turn ≠ .nothing) : p.cat.await = none := by
  refine Classical.byContradiction fun hA => hne ?_
  rw [← h, cuTurn, if_pos (.inr hA)]

/-- Work of the unit's own is begun when its turn has come (R8). -/
theorem beginOwn_of_turn {p : Part} {turn : Turn} (work : CuWork) (ops : List CuOp) (hon : p.on = true) (h : cuTurn p = turn) :
    beginOwn p turn work ops = cuWork (p.withCat fun c => { c with work := work, todo := ops }) := by
  simp [beginOwn, hon, h]

/-! ## A reclaim step -/

/-- A chosen unit with live pages, not open, has its image of lowest first page moved (R118). -/
theorem chooseUnit_moves {p : Part} {u : Nat} {x : ImageRef × ImageSpan} (why : MoveWhy) (eraseWhy : EraseWhy)
    (hpick : pickUnit (Config.unitCount + 1) p.store = (some u, p.store)) (hopen : p.store.openUnit ≠ some u)
    (hlive : (p.store.unit u).live ≠ 0) (himage : imageIn p u 0 = some x) :
    chooseUnit why eraseWhy p = push [.move x.1 false why false] p := by
  unfold chooseUnit
  rw [hpick]
  dsimp only
  rw [if_neg hopen, if_neg hlive, himage]

/-- The part once a move has its run placed and its first page asked for (R119). -/
def moveAsked (m : Move) (placed : Store) (p : Part) : Part :=
  issue (.readPage m.src.run.unit m.src.run.first) (.moveRead m 0)
    { p with store := placed, cat := { p.cat with copy := [], unplaced := false } }

theorem beginMove_placed {p : Part} {ref : ImageRef} {src : ImageSpan} {run : PageRun} {placed : Store} (second : Bool)
    (why : MoveWhy) (afterInline : Bool) (hspan : spanOf p ref = some src)
    (hplace : placeRun p.store src.run.pages = (some run, placed)) :
    beginMove ref second why afterInline p =
      moveAsked { ref := ref, src := src, target := run, second := second, why := why } placed p := by
  unfold beginMove
  rw [hspan]
  dsimp only
  rw [hplace]
  rfl

/-- The first page of a move joins the queue of its bank, behind what waits there (R106). -/
theorem moveAsked_queue {m : Move} {run : PageRun} {placed : Store} {p : Part} {n : Nat}
    (hplace : placeRun p.store n = (some run, placed)) :
    (moveAsked m placed p).store.queue (bankOf m.src.run.unit) = p.store.queue (bankOf m.src.run.unit) ++
      [{ client := .catalogue, op := .readPage m.src.run.unit m.src.run.first }] := by
  have hqueue := placeRun_queue p.store n (bankOf m.src.run.unit)
  rw [hplace] at hqueue
  rw [← hqueue]
  exact ask_queue_same placed .catalogue (.readPage m.src.run.unit m.src.run.first)

/-- The part with a reclaim step in hand, and what is left of it to do (R8). -/
def reclaiming (ops : List CuOp) (p : Part) : Part := p.withCat fun c => { c with work := .reclaim, todo := ops }

/-- A reclaim step that finds an image to move works on to the first page of the move (R118, R119). -/
theorem cuWork_reclaimStep {p : Part} {u : Nat} {ref : ImageRef} {src span : ImageSpan} {run : PageRun} {placed : Store}
    (hA : p.cat.await = none) (hpick : pickUnit (Config.unitCount + 1) p.store = (some u, p.store))
    (hlive : (p.store.unit u).live ≠ 0) (hopen : p.store.openUnit ≠ some u) (himage : imageIn p u 0 = some (ref, span))
    (hspan : spanOf p ref = some src) (hplace : placeRun p.store src.run.pages = (some run, placed)) :
    cuWork (reclaiming [.reclaimStep] p) = handOver (freeTested (reclaiming [.move ref false .step false] p)
      (moveAsked { ref := ref, src := src, target := run, second := false, why := .step } placed (reclaiming [] p))) := by
  have hA' : ∀ ops, (reclaiming ops p).cat.await = none := fun _ => hA
  have hchoose : workOp .reclaimStep (onlyDo [] (reclaiming [.reclaimStep] p)) = reclaiming [.move ref false .step false] p :=
    chooseUnit_moves (p := reclaiming [] p) (x := (ref, span)) .step .step hpick hopen hlive himage
  have hmove : workOp (.move ref false .step false) (onlyDo [] (reclaiming [.move ref false .step false] p)) =
      moveAsked { ref := ref, src := src, target := run, second := false, why := .step } placed (reclaiming [] p) :=
    beginMove_placed (p := reclaiming [] p) false .step false hspan hplace
  rw [cuWork, show Config.workBound = 8190 + 1 + 1 from rfl, cuRun_steady _ (hA' _) rfl hchoose rfl, cuRun_op _ (hA' _) rfl, hmove,
    cuRun_awaiting _ (by rw [freeTested_cat]; rfl), cuSettle_working (by rw [freeTested_cat]; exact CuWork.noConfusion)]

/-- Settles O55: the unit chosen has its lowest image moved, and the move asks for its first page (R118, R119). -/
theorem reclaimStepReadsTheImage : Obligations.ReclaimStepReadsTheImage := by
  intro s u ref src span run placed hon hturn hpick hlive hopen himage hspan hplace
  have hA : s.part.cat.await = none := await_none_of_turn hturn Turn.noConfusion
  have hwork := cuWork_reclaimStep hA hpick hlive hopen himage hspan hplace
  refine ⟨_, apply_of_eq ((beginOwn_of_turn .reclaim [.reclaimStep] hon hturn).trans hwork), ?_, ?_, ?_, ?_, ?_, ?_, rfl⟩
  · simp [moveAsked, issue, reclaiming]
  · simp [moveAsked, issue]
  · rw [handOver_store, freeTested_queue]
    exact moveAsked_queue (p := reclaiming [] s.part) hplace
  · simp [moveAsked, issue, reclaiming]
  · simp [moveAsked, issue, reclaiming]
  · simp [moveAsked, issue, reclaiming]

/-! ## Reads after an erase -/

theorem Mem.read_filter_dropped {d : Byte} {m : Mem} {c : Host.Cell → Bool} {a : Nat} (h : ∀ v, c (a, v) = false) :
    Mem.read d (m.filter c) a = d := by
  induction m with
  | nil => rfl
  | cons x r ih =>
    obtain ⟨k, v⟩ := x
    by_cases hc : c (k, v) = true
    · have hk : k ≠ a := by
        rintro rfl
        exact absurd hc (by simp [h])
      rw [List.filter_cons_of_pos hc, Mem.read, if_neg hk, ih]
    · rw [List.filter_cons_of_neg hc, ih]

theorem Mem.read_filter_kept {d : Byte} {m : Mem} {c : Host.Cell → Bool} {a : Nat} (h : ∀ v, c (a, v) = true) :
    Mem.read d (m.filter c) a = Mem.read d m a := by
  induction m with
  | nil => rfl
  | cons x r ih =>
    obtain ⟨k, v⟩ := x
    by_cases hc : c (k, v) = true
    · rw [List.filter_cons_of_pos hc, Mem.read, Mem.read, ih]
    · have hk : k ≠ a := by
        rintro rfl
        exact hc (h v)
      rw [List.filter_cons_of_neg hc, ih, Mem.read, if_neg hk]

/-- An erased byte reads as an unlisted one. -/
theorem Mem.read_clear_inside {d : Byte} {m : Mem} {lo hi a : Nat} (hlo : lo ≤ a) (hhi : a < hi) :
    Mem.read d (Mem.clear m lo hi) a = d := Mem.read_filter_dropped fun _ => by simp [hlo, hhi]

/-- An erase leaves every other byte as it is. -/
theorem Mem.read_clear_outside {d : Byte} {m : Mem} {lo hi a : Nat} (h : a < lo ∨ hi ≤ a) :
    Mem.read d (Mem.clear m lo hi) a = Mem.read d m a := Mem.read_filter_kept fun _ => by simpa using h

/-! ## A unit after an operation on it -/

section
variable {s : Store} {u : Nat}

@[simp] theorem setQueue_units (b : Bank) (q : List BankJob) : (s.setQueue b q).units = s.units := by cases b <;> rfl

theorem pageProgrammed_unit (page : Nat) (bytes : List Byte) (h : u < s.units.length) :
    (s.pageProgrammed u page bytes).unit u = { s.unit u with pages := page + 1, mode := .image } := modify_unit_same _ h

theorem pageProgrammed_freeCount (page : Nat) (bytes : List Byte) : (s.pageProgrammed u page bytes).freeCount = s.freeCount :=
  countP_modifyNth (fun x : EraseUnit => decide (x.cls = some .free)) (f := fun x => { x with pages := page + 1, mode := .image })
    (fun _ => rfl) u s.units

/-- A good erase leaves an image unit FREE, with nothing but its reader count and its bad flag as they were (R109). -/
theorem unitErased_unit (himage : s.isImage u = true) (h : u < s.units.length) : (s.unitErased u).unit u =
    { s.unit u with
      mode := .erased, pages := 0, slots := 0, live := 0, weak := false, pending := false, skip := false, passed := false
      cls := some .free } := by
  refine (modify_unit_same _ h).trans ?_
  rw [if_pos himage]

end

section
variable {p : Part} {u : Nat}

/-- The run-flag test leaves a unit without a passed-over mark as it is (R117, R118). -/
theorem reclaimTest_unit (h : (p.store.unit u).passed = false) : (reclaimTest p).store.unit u = p.store.unit u := by
  rcases reclaimTest_cases p with heq | heq | heq <;> rw [heq]
  · refine (stopRun_unit p.store u).trans ?_
    rw [← h]
  · rfl

theorem freeTested_unit (old : Part) (h : (p.store.unit u).passed = false) : (freeTested old p).store.unit u = p.store.unit u := by
  unfold freeTested
  split
  · rfl
  · exact reclaimTest_unit h

theorem cuSettle_unit (h : (p.store.unit u).passed = false) : (cuSettle p).store.unit u = p.store.unit u := by
  unfold cuSettle
  split
  · exact reclaimTest_unit h
  · rfl

end

/-! ## The ends of a page program and of an erase -/

section
variable {p : Part} {b : Bank} {q : List BankJob} {u : Nat}

/-- The part whose outcome the Catalogue Unit takes: the bank's operation is off its queue and nothing is awaited. -/
def outcomeTaken (b : Bank) (p : Part) : Part := (finishHead p b).withCat fun c => { c with await := none }

theorem outcomeTaken_units (b : Bank) (p : Part) : (outcomeTaken b p).store.units = p.store.units := setQueue_units ..

theorem outcomeTaken_unit (b : Bank) (p : Part) (u : Nat) : (outcomeTaken b p).store.unit u = p.store.unit u := by
  rw [Store.unit, outcomeTaken_units, Store.unit]

theorem outcomeTaken_isImage (b : Bank) (p : Part) (u : Nat) : (outcomeTaken b p).store.isImage u = p.store.isImage u := by
  cases b <;> rfl

/-- The part once a page of an image is programmed and the next one asked for (R113). -/
def nextPageAsked (b : Bank) (page i : Nat) (data : List Byte) (run : PageRun) (second : Bool) (p : Part) : Part :=
  programImage run (i + 1) second ((outcomeTaken b p).withStore fun s => s.pageProgrammed run.unit page data)

/-- A page program that goes well, not the image's last, asks for the next page (R113). -/
theorem endPageProgram_next {run : PageRun} {page i : Nat} {data : List Byte} {second : Bool} (hon : p.on = true)
    (hq : p.store.queue b = { client := .catalogue, op := .programPage run.unit page data } :: q)
    (hA : p.cat.await = some (.program run i second)) (hi : i + 1 < run.pages) :
    endPageProgram b .done p = cuSettle (nextPageAsked b page i data run second p) := by
  have hA' : (finishHead p b).cat.await = some (.program run i second) := hA
  have hnext : programOutcome run.unit page data .done run i second (outcomeTaken b p) =
      nextPageAsked b page i data run second p := by
    simp only [programOutcome, if_pos hi]
    rfl
  have hfree : (nextPageAsked b page i data run second p).store.freeCount = (finishHead p b).store.freeCount :=
    (ask_freeCount ..).trans (pageProgrammed_freeCount ..)
  rw [endPageProgram, hq, List.head?_cons]
  simp only [hon, if_true, cuProgramDone, hA', cuResume]
  rw [show (finishHead p b).withCat (fun c => { c with await := none }) = outcomeTaken b p from rfl, hnext, freeTested_same hfree,
    cuWork_awaiting rfl]

/-- The part once a unit is erased (R109). -/
def unitErasedIn (b : Bank) (u : Nat) (p : Part) : Part := (outcomeTaken b p).withStore fun s => s.unitErased u

/-- With no unit left to erase the Catalogue Unit has done its work (R116). -/
theorem cuWork_eraseOver {why : EraseWhy} (hA : p.cat.await = none) (hT : p.cat.todo = [.erase [] why]) :
    cuWork p = cuSettle (endJob (onlyDo [] p)) := by
  rw [cuWork, show Config.workBound = 8190 + 1 + 1 from rfl, cuRun_steady (q := onlyDo [] p) _ hA hT rfl rfl,
    cuRun_done (p := onlyDo [] p) _ hA rfl]

/-- What follows the last erase leaves a unit without a passed-over mark as it is. -/
theorem eraseOver_unit (old : Part) (ops : List CuOp) (h : (p.store.unit u).passed = false) :
    (cuSettle (endJob (onlyDo [] (freeTested old (push ops p))))).store.unit u = p.store.unit u := by
  have hfree : (freeTested old (push ops p)).store.unit u = p.store.unit u := freeTested_unit (p := push ops p) old h
  have hpassed : ((freeTested old (push ops p)).store.unit u).passed = false := by rw [hfree, h]
  exact (cuSettle_unit (p := endJob (onlyDo [] (freeTested old (push ops p)))) hpassed).trans hfree

theorem eraseOver_memories (old p : Part) (ops : List CuOp) :
    (cuSettle (endJob (onlyDo [] (freeTested old (push ops p))))).memories = p.memories := by simp

/-- The last erase of a list that goes well, with nothing after it to do, ends the work (R116). -/
theorem endErase_last {why : EraseWhy} (hon : p.on = true) (hq : p.store.queue b = { client := .catalogue, op := .eraseUnit u } :: q)
    (hA : p.cat.await = some (.erase u [] why)) (hT : p.cat.todo = []) :
    endErase b .done p =
      cuSettle (endJob (onlyDo [] (freeTested (finishHead p b) (push [.erase [] why] (unitErasedIn b u p))))) := by
  have hA' : (finishHead p b).cat.await = some (.erase u [] why) := hA
  have herased : eraseOutcome u .done [] why (outcomeTaken b p) = push [.erase [] why] (unitErasedIn b u p) := rfl
  have hT' : (push [.erase [] why] (unitErasedIn b u p)).cat.todo = [.erase [] why] := congrArg (CuOp.erase [] why :: ·) hT
  rw [endErase, hq, List.head?_cons]
  simp only [hon, if_true, cuEraseDone, hA', cuResume]
  rw [show (finishHead p b).withCat (fun c => { c with await := none }) = outcomeTaken b p from rfl, herased,
    cuWork_eraseOver (by rw [freeTested_cat]; rfl) (by rw [freeTested_cat]; exact hT')]

/-- An erased page is read error-free, whoever reads it (R107). -/
theorem endPageRead_erased {client : Client} {v k : Nat} (errors : Nat)
    (hq : p.store.queue b = { client := client, op := .readPage v k } :: q) (h : (p.store.unit v).pages ≤ k) :
    endPageRead b errors p = endPageRead b 0 p := by
  unfold endPageRead
  rw [hq, List.head?_cons]
  cases client <;> simp only [Store.pageErrors_erased h]

end

section
variable {s : State} {b : Bank} {q : List BankJob} {u : Nat}

theorem pageProgram_ends {page i : Nat} {data : List Byte} {run : PageRun} {second : Bool} (hon : s.part.on = true)
    (hunit : run.unit < s.part.store.units.length)
    (hq : s.part.store.queue b = { client := .catalogue, op := .programPage run.unit page data } :: q)
    (hA : s.part.cat.await = some (.program run i second)) (hi : i + 1 < run.pages) :
    ∃ t, exec (.pageProgramDone b .done) s = .next t ∧ (t.part.store.unit run.unit).pages = page + 1 ∧
      (t.part.store.unit run.unit).mode = .image ∧ t.part.cat.await = some (.program run (i + 1) second) ∧
      (t.part.store.queue (bankOf run.unit)).getLast? = some
        { client := .catalogue, op := .programPage run.unit (run.first + (i + 1)) (imagePage s.part.cat.buffer (i + 1)) } ∧
      t.part.cat.entries = s.part.cat.entries ∧ t.part.host = s.part.host ∧ t.pending = s.pending := by
  have hprogrammed : (nextPageAsked b page i data run second s.part).store.unit run.unit =
      { s.part.store.unit run.unit with pages := page + 1, mode := .image } := by
    refine (ask_unit ..).trans ((pageProgrammed_unit page data ?_).trans ?_)
    · rw [outcomeTaken_units]
      exact hunit
    · rw [outcomeTaken_unit]
  have hasked := ask_queue_same ((outcomeTaken b s.part).store.pageProgrammed run.unit page data) .catalogue
    (.programPage run.unit (run.first + (i + 1)) (imagePage s.part.cat.buffer (i + 1)))
  obtain ⟨passed, hsettled⟩ := (cuSettle_sameButRun (nextPageAsked b page i data run second s.part)).2 run.unit
  rw [hprogrammed] at hsettled
  refine ⟨_, apply_of_eq (endPageProgram_next hon hq hA hi), congrArg EraseUnit.pages hsettled, congrArg EraseUnit.mode hsettled,
    ?_, ?_, ?_, ?_, rfl⟩
  · rw [cuSettle_cat]
    rfl
  · rw [cuSettle_queue]
    exact (congrArg List.getLast? hasked).trans List.getLast?_concat
  · rw [cuSettle_cat]
    rfl
  · exact (cuSettle_host _).trans rfl

theorem erase_ends (hon : s.part.on = true) (hunit : u < s.part.store.units.length)
    (hq : s.part.store.queue b = { client := .catalogue, op := .eraseUnit u } :: q)
    (hA : s.part.cat.await = some (.erase u [] .between)) (hT : s.part.cat.todo = []) (himage : s.part.store.isImage u = true) :
    ∃ t, exec (.eraseDone b .done) s = .next t ∧ (t.part.store.unit u).cls = some .free ∧ (t.part.store.unit u).pages = 0 ∧
      (t.part.store.unit u).mode = .erased ∧ (t.part.store.unit u).pending = false ∧ (t.part.store.unit u).weak = false ∧
      (t.part.store.unit u).slots = 0 ∧ (t.part.store.unit u).skip = false ∧ (t.part.store.unit u).passed = false ∧
      (t.part.store.unit u).live = 0 ∧
      (∀ a, u * 16384 ≤ a → a < (u + 1) * 16384 → Mem.read flashBlank t.part.store.flash a = 0xFF#8) ∧
      (∀ a, a < u * 16384 ∨ (u + 1) * 16384 ≤ a →
        Mem.read flashBlank t.part.store.flash a = Mem.read flashBlank s.part.store.flash a) ∧
      t.part.cat.work = .idle ∧ t.part.cat.entries = s.part.cat.entries ∧ t.part.host = s.part.host ∧ t.pending = s.pending := by
  have herased : (unitErasedIn b u s.part).store.unit u = { s.part.store.unit u with
      mode := .erased, pages := 0, slots := 0, live := 0, weak := false, pending := false, skip := false, passed := false
      cls := some .free } := by
    refine (unitErased_unit ?_ ?_).trans ?_
    · rw [outcomeTaken_isImage]
      exact himage
    · rw [outcomeTaken_units]
      exact hunit
    · rw [outcomeTaken_unit]
  have hmemories : (unitErasedIn b u s.part).memories =
      (s.part.host, Mem.clear s.part.store.flash (u * 16384) ((u + 1) * 16384)) := by
    cases b <;> rfl
  have hexec := endErase_last hon hq hA hT
  have hunitAfter := eraseOver_unit (finishHead s.part b) [.erase [] .between] (congrArg EraseUnit.passed herased)
  have hmemoriesAfter := eraseOver_memories (finishHead s.part b) (unitErasedIn b u s.part) [.erase [] .between]
  rw [← hexec, herased] at hunitAfter
  rw [← hexec, hmemories] at hmemoriesAfter
  obtain ⟨hhost, hflash⟩ := Prod.mk.inj hmemoriesAfter
  refine ⟨_, rfl, congrArg EraseUnit.cls hunitAfter, congrArg EraseUnit.pages hunitAfter, congrArg EraseUnit.mode hunitAfter,
    congrArg EraseUnit.pending hunitAfter, congrArg EraseUnit.weak hunitAfter, congrArg EraseUnit.slots hunitAfter,
    congrArg EraseUnit.skip hunitAfter, congrArg EraseUnit.passed hunitAfter, congrArg EraseUnit.live hunitAfter,
    fun a hlo hhi => ?_, fun a ha => ?_, ?_, ?_, hhost, rfl⟩
  · exact (congrArg (Mem.read flashBlank · a) hflash).trans (Mem.read_clear_inside hlo hhi)
  · exact (congrArg (Mem.read flashBlank · a) hflash).trans (Mem.read_clear_outside ha)
  · exact (congrArg (fun p : Part => p.cat.work) hexec).trans (congrArg CatUnit.work (cuSettle_cat _))
  · refine (congrArg (fun p : Part => p.cat.entries) hexec).trans ?_
    rw [cuSettle_cat, endJob_entries, onlyDo_entries, freeTested_cat]
    rfl

end

/-- Settles O60: one lemma for each of the three ends. -/
theorem pageProgramAndEraseEnd : Obligations.PageProgramAndEraseEnd := by
  intro s b q u page i data run second hon hunit
  refine ⟨?_, fun hq hA hT himage => erase_ends hon hunit hq hA hT himage, fun client v k errors hq hk => ?_⟩
  · rintro hq hA hi rfl
    exact pageProgram_ends hon hunit hq hA hi
  · exact congrArg Host.Outcome.next (congrArg (fun p => { s with part := p }) (endPageRead_erased errors hq hk))

end Sys2Proof.Machine
end

section
/-! The record slot (R125, R126, R165): numbers read back from the bytes that carry them, and each kind of record from its payload. -/
namespace Sys2Proof.Machine

/-! ## Numbers in bytes -/

/-- A number that fits its bytes is read back from them (R163). -/
theorem leNat_leBytes {n v : Nat} (h : v < 256 ^ n) : leNat (leBytes n v) = v := by
  induction n generalizing v with
  | zero =>
    rw [Nat.pow_zero, Nat.lt_one_iff] at h
    rw [h]
    rfl
  | succ n ih =>
    have hrest : v / 256 < 256 ^ n := Nat.div_lt_of_lt_mul (by rwa [Nat.pow_succ'] at h)
    rw [leBytes, leNat, ih hrest, BitVec.toNat_ofNat]
    omega

theorem sliceAt_here {xs rest : List Byte} {n : Nat} (h : xs.length = n) : sliceAt (xs ++ rest) 0 n = xs := by
  simp [sliceAt, ← h]

theorem sliceAt_skip {xs rest : List Byte} {off n : Nat} (h : xs.length ≤ off) :
    sliceAt (xs ++ rest) off n = sliceAt rest (off - xs.length) n := by
  simp [sliceAt, List.drop_append, List.drop_eq_nil_of_le h]

@[simp] theorem numAt_here {rest : List Byte} {n v : Nat} (h : v < 256 ^ n) : numAt (leBytes n v ++ rest) 0 n = v := by
  rw [numAt, sliceAt_here (leBytes_length n v), leNat_leBytes h]

theorem numAt_skip {xs rest : List Byte} {off n : Nat} (h : xs.length ≤ off) :
    numAt (xs ++ rest) off n = numAt rest (off - xs.length) n := by
  rw [numAt, sliceAt_skip h, numAt]

theorem unitNumbers_skip {xs rest : List Byte} {off : Nat} (n : Nat) (h : xs.length ≤ off) :
    unitNumbers (xs ++ rest) off n = unitNumbers rest (off - xs.length) n := by
  induction n generalizing off with
  | zero => rfl
  | succ n ih => rw [unitNumbers, unitNumbers, numAt_skip h, ih (by omega), Nat.sub_add_comm h]

/-- Two-byte unit numbers written one after another are read back. -/
theorem unitNumbers_flatMap {us : List Nat} (rest : List Byte) (h : ∀ u ∈ us, u < 2 ^ 16) :
    unitNumbers (us.flatMap (leBytes 2) ++ rest) 0 us.length = us := by
  induction us with
  | nil => rfl
  | cons u us ih =>
    obtain ⟨hu, hus⟩ := List.forall_mem_cons.1 h
    rw [List.flatMap_cons, List.append_assoc, List.length_cons, unitNumbers, numAt_here hu,
      unitNumbers_skip _ (Nat.le_of_eq (leBytes_length 2 u)), leBytes_length, ih hus]

section
variable {rest : List Byte} {k v off n : Nat}

@[simp] theorem numAt_afterNumber (h : k ≤ off) : numAt (leBytes k v ++ rest) off n = numAt rest (off - k) n := by
  rw [numAt_skip (by rwa [leBytes_length]), leBytes_length]

@[simp] theorem unitNumbers_afterNumber (h : k ≤ off) : unitNumbers (leBytes k v ++ rest) off n = unitNumbers rest (off - k) n := by
  rw [unitNumbers_skip n (by rwa [leBytes_length]), leBytes_length]

@[simp] theorem sliceAt_afterNumber (h : k ≤ off) : sliceAt (leBytes k v ++ rest) off n = sliceAt rest (off - k) n := by
  rw [sliceAt_skip (by rwa [leBytes_length]), leBytes_length]

end

/-! ## The slot -/

/-- Bytes 0 to 7 of a record slot: its number, its kind and its form (R165). -/
def slotHead (seq : Nat) (r : JournalRecord) : List Byte :=
  leBytes 4 seq ++ (leBytes 1 r.kindCode ++ (leBytes 1 r.formCode ++ leBytes 2 0))

theorem slotHead_length (seq : Nat) (r : JournalRecord) : (slotHead seq r).length = 8 := by
  simp [slotHead, leBytes_length]

theorem slotBody_length {seq : Nat} {r : JournalRecord} (h : r.payload.length ≤ 116) : (slotBody seq r).length = 124 := by
  simp only [slotBody, fillTo, leBytes_length, List.length_append, List.length_take, List.length_replicate]
  omega

/-- The bytes before the CRC are the head, the payload and zeros (R125, R165). -/
theorem slotBody_eq (seq : Nat) {r : JournalRecord} (h : r.payload.length ≤ 116) :
    slotBody seq r = slotHead seq r ++ (r.payload ++ List.replicate (116 - r.payload.length) 0#8) := by
  simp only [slotBody, slotHead, fillTo, List.take_of_length_le h, List.append_assoc]

/-- A slot begins with its head and its payload, whatever follows. -/
theorem slotEncode_eq (seq : Nat) {r : JournalRecord} (h : r.payload.length ≤ 116) :
    ∃ tail, slotEncode seq r = slotHead seq r ++ (r.payload ++ tail) :=
  ⟨List.replicate (116 - r.payload.length) 0#8 ++ leBytes 4 (crc32 (slotBody seq r)),
    (congrArg (· ++ leBytes 4 (crc32 (slotBody seq r))) (slotBody_eq seq h)).trans (by simp only [List.append_assoc])⟩

theorem crc32_lt (bs : List Byte) : crc32 bs < 256 ^ 4 := BitVec.isLt _

/-- The CRC of an encoded slot agrees, and its number reads back: what is decoded is its record (R125). -/
theorem slotDecode_slotEncode {seq : Nat} {r r' : JournalRecord} (hseq : seq < 2 ^ 32) (hlen : r.payload.length ≤ 116)
    (h : recordOf (slotEncode seq r) = some r') : slotDecode (slotEncode seq r) = some (seq, r') := by
  have hbody : (slotBody seq r).length = 124 := slotBody_length hlen
  have htake : (slotEncode seq r).take 124 = slotBody seq r := by rw [slotEncode, ← hbody, List.take_left]
  have hcrc : numAt (slotEncode seq r) 124 4 = crc32 (slotBody seq r) := by
    rw [slotEncode, numAt_skip (Nat.le_of_eq hbody), hbody, ← List.append_nil (leBytes 4 _)]
    exact numAt_here (crc32_lt _)
  have hnum : numAt (slotEncode seq r) 0 4 = seq := by
    obtain ⟨tail, heq⟩ := slotEncode_eq seq hlen
    rw [heq, slotHead, List.append_assoc]
    exact numAt_here hseq
  rw [slotDecode, htake, if_pos hcrc, h, hnum, Option.map_some]

section
variable {seq : Nat} {r : JournalRecord} {rest : List Byte}

theorem JournalRecord.kindCode_lt (r : JournalRecord) : r.kindCode < 256 ^ 1 := by
  cases r <;> simp [JournalRecord.kindCode]

theorem RecordForm.value_lt (f : RecordForm) : f.value < 256 ^ 1 := by cases f <;> decide

theorem JournalRecord.formCode_lt (r : JournalRecord) : r.formCode < 256 ^ 1 := by
  cases r with
  | entry f | ruleset f => exact f.value_lt
  | _ => exact Nat.succ_pos 255

@[simp] theorem numAt_slotHead_kind : numAt (slotHead seq r ++ rest) 4 1 = r.kindCode := by
  simp [slotHead, numAt_here r.kindCode_lt]

@[simp] theorem numAt_slotHead_form : numAt (slotHead seq r ++ rest) 5 1 = r.formCode := by
  simp [slotHead, numAt_here r.formCode_lt]

@[simp] theorem numAt_payload {off n : Nat} (h : 8 ≤ off) : numAt (slotHead seq r ++ rest) off n = numAt rest (off - 8) n := by
  rw [numAt_skip (by rwa [slotHead_length]), slotHead_length]

@[simp] theorem sliceAt_payload {off n : Nat} (h : 8 ≤ off) : sliceAt (slotHead seq r ++ rest) off n = sliceAt rest (off - 8) n := by
  rw [sliceAt_skip (by rwa [slotHead_length]), slotHead_length]

@[simp] theorem unitNumbers_payload {off : Nat} (n : Nat) (h : 8 ≤ off) :
    unitNumbers (slotHead seq r ++ rest) off n = unitNumbers rest (off - 8) n := by
  rw [unitNumbers_skip n (by rwa [slotHead_length]), slotHead_length]

end

/-! ## Fields of the payload -/

@[simp] theorem numAt_bool (b : Bool) (rest : List Byte) : numAt (leBytes 1 (boolNat b) ++ rest) 0 1 = boolNat b :=
  numAt_here (by cases b <;> decide)

@[simp] theorem decide_boolNat (b : Bool) : decide (boolNat b = 1) = b := by cases b <;> rfl

@[simp] theorem formOf_value (f : RecordForm) : formOf f.value = some f := by cases f <;> rfl

@[simp] theorem orderOf_value (o : ByteOrder) : orderOf o.value = o := by cases o <;> rfl

@[simp] theorem slotGeneration_length (g : Option Generation) : (slotGeneration g).length = 16 := by
  cases g <;> simp [slotGeneration, leBytes_length]

/-- A generation that fits its 16 bytes is read back from them; absent, they are zeros (R163, R165). -/
theorem slotGenerationOf_slotGeneration {o : Option Generation} (h : ∀ g, g ∈ o → g.fits) :
    slotGenerationOf (slotGeneration o) = o := by
  cases o with
  | none => decide
  | some g =>
    obtain ⟨hnumber, hlength, hunit, hfirst, hpages, hcrc⟩ := h g rfl
    have hlast : numAt (leBytes 4 g.crc) 0 4 = g.crc := by
      rw [← List.append_nil (leBytes 4 _)]
      exact numAt_here hcrc
    simp (disch := omega) [slotGenerationOf, slotGeneration, hlast]

theorem slotGenerationOf_here {o : Option Generation} {rest : List Byte} (h : ∀ g, g ∈ o → g.fits) :
    slotGenerationOf (sliceAt (slotGeneration o ++ rest) 0 16) = o := by
  rw [sliceAt_here (slotGeneration_length _), slotGenerationOf_slotGeneration h]

@[simp] theorem sliceAt_afterGeneration {o : Option Generation} {rest : List Byte} {off n : Nat} (h : 16 ≤ off) :
    sliceAt (slotGeneration o ++ rest) off n = sliceAt rest (off - 16) n := by
  rw [sliceAt_skip (by rwa [slotGeneration_length]), slotGeneration_length]

theorem fillTo_length (n : Nat) (fill : Byte) (bs : List Byte) : (fillTo n fill bs).length = n := by
  rw [fillTo, List.length_append, List.length_take, List.length_replicate]
  omega

/-! ## The record of a slot -/

section
variable {seq : Nat} {tail : List Byte}

theorem recordOf_entry {f : RecordForm} {e : EntryImage} (h : (JournalRecord.entry f e).Fits) :
    recordOf (slotHead seq (.entry f e) ++ ((JournalRecord.entry f e).payload ++ tail)) = some (.entry f e) := by
  obtain ⟨⟨hstation, hblock, hformat⟩, hset, hcounter, hgens⟩ := h
  have hstaged := slotGenerationOf_here (rest := slotGeneration e.current ++ (slotGeneration e.previous ++ tail))
    fun g hg => hgens g (.inl hg)
  have hcurrent := slotGenerationOf_here (rest := slotGeneration e.previous ++ tail) fun g hg => hgens g (.inr (.inl hg))
  have hprevious := slotGenerationOf_here (rest := tail) fun g hg => hgens g (.inr (.inr hg))
  simp (disch := omega) [recordOf, JournalRecord.kindCode, JournalRecord.formCode, JournalRecord.payload, keyOf, keyBytes, hstaged,
    hcurrent, hprevious]

/-- A station's byte order is carried while it is defined; an undefined one reads back with BIG (log 28). -/
theorem recordOf_station {n : Nat} {x : StationImage} (hn : n < 2 ^ 8) (hname : x.name.length = 8) :
    recordOf (slotHead seq (.station n x) ++ ((JournalRecord.station n x).payload ++ tail)) =
      some (.station n { x with order := if x.defined then x.order else .big }) := by
  have hfill : fillTo 8 0#8 x.name = x.name := by
    simp [fillTo, hname, List.take_of_length_le (Nat.le_of_eq hname)]
  have hcode : (if x.defined then x.order.value else 0) < 256 ^ 1 := by
    cases x.defined <;> cases x.order <;> decide
  have horder : orderOf (if x.defined then x.order.value else 0) = if x.defined then x.order else .big := by
    cases x.defined
    · rfl
    · exact orderOf_value x.order
  simp (disch := omega) [recordOf, JournalRecord.kindCode, JournalRecord.payload, hfill, numAt_here hcode, horder,
    sliceAt_here hname]

theorem recordOf_bad {us : List Nat} (h : (JournalRecord.bad us).Fits) :
    recordOf (slotHead seq (.bad us) ++ ((JournalRecord.bad us).payload ++ tail)) = some (.bad us) := by
  obtain ⟨hlen, hus⟩ := h
  have hcount : us.length < 256 := by omega
  simp (disch := omega) [recordOf, JournalRecord.kindCode, JournalRecord.payload, unitNumbers_flatMap tail hus]

/-- The record of a slot is the one whose head and payload it holds (R126). -/
theorem recordOf_slot {r : JournalRecord} (h : r.Fits) : recordOf (slotHead seq r ++ (r.payload ++ tail)) = some r := by
  cases r with
  | entry f e => exact recordOf_entry h
  | entryGone k =>
    obtain ⟨hstation, hblock, hformat⟩ := h
    simp (disch := omega) [recordOf, JournalRecord.kindCode, JournalRecord.payload, keyOf, keyBytes]
  | ruleset f n img =>
    obtain ⟨hn, hunit, hfirst, hpages, hcount, hcrc⟩ := h
    simp (disch := omega) [recordOf, JournalRecord.kindCode, JournalRecord.formCode, JournalRecord.payload]
  | rulesetGone n =>
    have hfits : n < 2 ^ 8 := h
    simp (disch := omega) [recordOf, JournalRecord.kindCode, JournalRecord.payload]
  | station n x =>
    obtain ⟨hn, hname, horder⟩ := h
    have hread : (if x.defined then x.order else .big) = x.order := by
      split
      · rfl
      · exact (horder (Bool.eq_false_iff.2 ‹_›)).symm
    rw [recordOf_station hn hname, hread]
  | param ps =>
    have hfits : ps.staleness < 2 ^ 32 := h
    simp (disch := omega) [recordOf, JournalRecord.kindCode, JournalRecord.payload]
  | format f =>
    have hfits : f < 2 ^ 8 := h
    simp (disch := omega) [recordOf, JournalRecord.kindCode, JournalRecord.payload]
  | bad us => exact recordOf_bad h
  | commitBegin f n =>
    obtain ⟨hf, hn⟩ := h
    simp (disch := omega) [recordOf, JournalRecord.kindCode, JournalRecord.payload]
  | commitEnd => simp [recordOf, JournalRecord.kindCode]
  | snapBegin R =>
    have hfits : R < 2 ^ 8 := h
    simp (disch := omega) [recordOf, JournalRecord.kindCode, JournalRecord.payload]
  | snapEnd n =>
    have hfits : n < 2 ^ 16 := h
    simp (disch := omega) [recordOf, JournalRecord.kindCode, JournalRecord.payload]

end

/-! ## The round trip -/

theorem flatMap_leBytes_length (n : Nat) (us : List Nat) : (us.flatMap (leBytes n)).length = n * us.length := by
  induction us with
  | nil => rfl
  | cons u us ih => rw [List.flatMap_cons, List.length_append, leBytes_length, ih, List.length_cons, Nat.mul_succ, Nat.add_comm]

theorem payload_length_le {r : JournalRecord} (h : ∀ us, r = .bad us → us.length ≤ 16) : r.payload.length ≤ 116 := by
  cases r with
  | bad us =>
    have hlen := h us rfl
    simp only [JournalRecord.payload, List.length_append, leBytes_length, flatMap_leBytes_length]
    omega
  | _ => simp [JournalRecord.payload, leBytes_length, keyBytes, fillTo_length]

/-- Settles O11: the CRC of the slot agrees, and its head and payload give the number and the record back. -/
theorem recordSlotRoundTrip : Obligations.RecordSlotRoundTrip := by
  refine ⟨fun seq r hseq hfits => ?_, fun seq n x hseq hn hname hundefined => ?_⟩
  · have hlen : r.payload.length ≤ 116 := payload_length_le fun us hr => by
      subst hr
      exact hfits.1
    obtain ⟨tail, heq⟩ := slotEncode_eq seq hlen
    exact slotDecode_slotEncode hseq hlen (by rw [heq, recordOf_slot hfits])
  · have hlen : (JournalRecord.station n x).payload.length ≤ 116 := payload_length_le fun _ hr => by cases hr
    obtain ⟨tail, heq⟩ := slotEncode_eq seq hlen
    exact slotDecode_slotEncode hseq hlen (by rw [heq, recordOf_station hn hname, hundefined, if_neg Bool.false_ne_true])

end Sys2Proof.Machine
end

section
/-! A slot program that fails (R127, R128): its unit enters the bad-unit list, and its record is asked for again in the next good unit
of the ring, or the journal is full. -/
namespace Sys2Proof.Machine

/-! ## The ring after a unit has become bad -/

/-- A store is as another, but that a unit is bad in it. -/
structure BadToo (s t : Store) (u : Nat) : Prop where
  recordSize : t.recordSize = s.recordSize
  bad        : (t.unit u).bad = true
  others     : ∀ v, v ≠ u → t.unit v = s.unit v

section
variable {s t : Store} {u v : Nat}

/-- The unit leaves the ring, and the others stay in it (R127). -/
theorem BadToo.mem_goodRecords (h : BadToo s t u) : v ∈ goodRecords t ↔ v ∈ goodRecords s ∧ v ≠ u := by
  by_cases hv : v = u
  · subst hv
    simp [goodRecords, h.bad]
  · simp [goodRecords, h.recordSize, h.others v hv, hv]

theorem BadToo.goodRecords_eq (h : BadToo s t u) : goodRecords t = (goodRecords s).filter fun v => decide (v ≠ u) := by
  rw [goodRecords, goodRecords, List.filter_filter, h.recordSize]
  refine List.filter_congr fun v _ => ?_
  by_cases hv : v = u
  · subst hv
    simp [h.bad]
  · simp [h.others v hv, hv]

/-- The next good unit is the same wherever the same unit has become bad. -/
theorem BadToo.nextGood_eq {t' : Store} (h : BadToo s t u) (h' : BadToo s t' u) (v : Nat) : nextGood t v = nextGood t' v := by
  rw [nextGood, nextGood, h.goodRecords_eq, h'.goodRecords_eq]

theorem nextGood_mem (h : nextGood s u = some v) : v ∈ goodRecords s := by
  rcases Option.or_eq_some_iff.1 h with hfind | ⟨-, hfind⟩
  · exact List.mem_of_find?_eq_some hfind
  · exact List.mem_of_find?_eq_some hfind

theorem BadToo.anyFreeSlot_iff (h : BadToo s t u) :
    anyFreeSlot t = true ↔ ∃ f ∈ goodRecords s, f ≠ u ∧ (s.unit f).slots < Config.slotsPerUnit := by
  rw [anyFreeSlot, List.any_eq_true]
  refine exists_congr fun f => ?_
  rw [h.mem_goodRecords, and_assoc, decide_eq_true_iff]
  exact and_congr_right fun _ => and_congr_right fun hf => by rw [h.others f hf]

end

/-! ## The place of a record that is written again -/

section
variable {s : Store} {u v : Nat}

theorem slotPlace_again (s : Store) (u : Nat) : slotPlace s (some u) true = placeBeyond s u true := rfl

theorem placeBeyond_empty {again : Bool} (hnext : nextGood s u = some v) (h : (s.unit v).slots = 0) :
    placeBeyond s u again = .here v := by
  simp [placeBeyond, hnext, h]

theorem placeBeyond_programmed (hnext : nextGood s u = some v) (h : (s.unit v).slots ≠ 0) (hfree : anyFreeSlot s = true) :
    placeBeyond s u true = .afterErase v := by
  simp [placeBeyond, hnext, h, hfree]

/-- Without a free slot in a good unit there is no place to write again (R128, log 20). -/
theorem placeBeyond_full (hfree : anyFreeSlot s = false) : placeBeyond s u true = .nowhere := by
  unfold placeBeyond
  split
  · rfl
  next v hnext =>
    have hslots : ¬ (s.unit v).slots < Config.slotsPerUnit := fun hlt =>
      Bool.eq_false_iff.1 hfree (List.any_eq_true.2 ⟨v, nextGood_mem hnext, decide_eq_true hlt⟩)
    have hne : (s.unit v).slots ≠ 0 := fun h0 => hslots (by rw [h0]; decide)
    simp [hne, hfree]

end

/-! ## Asking for the record -/

section
variable {p : Part} {v num : Nat} {again : Bool} {recs : List JournalRecord} {w : Writer}

theorem putSlot_here (h : slotPlace p.store p.cat.writeUnit again = .here v) : putSlot again recs num w p =
    issue (.programSlot v (p.store.unit v).slots (slotEncode num (recs.headD .commitEnd))) (.slot recs num w)
      (p.withCat fun c => { c with writeUnit := some v }) := by
  simp [putSlot, h]

theorem putSlot_afterErase (h : slotPlace p.store p.cat.writeUnit again = .afterErase v) : putSlot again recs num w p =
    issue (.eraseUnit v) (.ringErase recs num w again) p := by
  simp [putSlot, h]

theorem putSlot_nowhere (h : slotPlace p.store p.cat.writeUnit again = .nowhere) : putSlot again recs num w p =
    journalFull w (p.withCat fun c => { c with nextSeq := num }) := by
  simp [putSlot, h]

/-- What follows a piece of work leaves the bad-unit list as it is. -/
theorem Store.sameButRun_bad {s t : Store} (h : s.sameButRun t) (u : Nat) : (t.unit u).bad = (s.unit u).bad := by
  obtain ⟨x, hx⟩ := h.2 u
  rw [hx]

@[simp] theorem freeTested_bad (old p : Part) (u : Nat) : ((freeTested old p).store.unit u).bad = (p.store.unit u).bad :=
  Store.sameButRun_bad (freeTested_sameButRun old p) u

@[simp] theorem cuSettle_bad (p : Part) (u : Nat) : ((cuSettle p).store.unit u).bad = (p.store.unit u).bad :=
  Store.sameButRun_bad (cuSettle_sameButRun p) u

/-- The part once an operation is asked for in the course of an outcome's work. -/
def askedAfter (old : Part) (op : BankOp) (a : CuAwait) (p : Part) : Part := cuSettle (freeTested old (issue op a p))

variable {old : Part} {op : BankOp} {a : CuAwait}

theorem cuWork_asked : cuWork (freeTested old (issue op a p)) = askedAfter old op a p :=
  cuWork_awaiting (by rw [freeTested_cat]; rfl)

theorem askedAfter_cat : (askedAfter old op a p).cat = { p.cat with await := some a } := by
  rw [askedAfter, cuSettle_cat, freeTested_cat]
  rfl

theorem askedAfter_bad (u : Nat) : ((askedAfter old op a p).store.unit u).bad = (p.store.unit u).bad := by
  rw [askedAfter, cuSettle_bad, freeTested_bad]
  exact congrArg EraseUnit.bad (ask_unit ..)

theorem askedAfter_queue : ((askedAfter old op a p).store.queue (bankOf op.unit)).getLast? =
    some { client := .catalogue, op := op } := by
  rw [askedAfter, cuSettle_queue, freeTested_queue]
  exact (congrArg List.getLast? (ask_queue_same p.store .catalogue op)).trans List.getLast?_concat

end

/-! ## The failed slot -/

/-- The part once a slot program has failed, its record still to be placed (R108, R111). -/
def slotFailed (b : Bank) (u m : Nat) (left : List Byte) (p : Part) : Part :=
  waitBad u ((outcomeTaken b p).withStore fun s => (s.slotProgrammed u m left).markBad u)

section
variable {p : Part} {b : Bank} {u m num : Nat} {data left : List Byte} {q : List BankJob} {recs : List JournalRecord} {w : Writer}

/-- After a failed slot program its record is put again (R128). -/
theorem endSlotProgram_failed (hon : p.on = true) (hbank : p.store.queue b = { client := .catalogue, op := .programSlot u m data } :: q)
    (hA : p.cat.await = some (.slot recs num w)) : endSlotProgram b (.failed left) p =
      cuWork (freeTested (finishHead p b) (putSlot true recs num w (slotFailed b u m left p))) := by
  have hA' : (finishHead p b).cat.await = some (.slot recs num w) := hA
  rw [endSlotProgram, hbank, List.head?_cons]
  simp only [hon, if_true, cuSlotDone, hA', cuResume]
  rfl

/-- The failed slot's unit is bad, and no other unit has changed. -/
theorem slotFailed_badToo (hu : u < p.store.units.length) : BadToo p.store (slotFailed b u m left p).store u := by
  have hlen : u < ((outcomeTaken b p).store.slotProgrammed u m left).units.length := by
    rw [Store.slotProgrammed, Store.modify, modifyNth_length, outcomeTaken_units]
    exact hu
  refine ⟨by cases b <;> rfl, ?_, fun v hv => ?_⟩
  · exact congrArg EraseUnit.bad (modify_unit_same _ hlen)
  · refine (modifyNth_getD_other _ u v _ _ hv).trans ((modifyNth_getD_other _ u v _ _ hv).trans ?_)
    exact outcomeTaken_unit b p v

theorem modify_badToo (hu : u < p.store.units.length) :
    BadToo p.store ((p.store.setQueue b q).modify u fun y => { y with bad := true }) u := by
  have hunits : (p.store.setQueue b q).units = p.store.units := setQueue_units ..
  refine ⟨by cases b <;> rfl, ?_, fun v hv => ?_⟩
  · exact congrArg EraseUnit.bad (modify_unit_same _ (by rwa [hunits]))
  · refine (modifyNth_getD_other _ u v _ _ hv).trans ?_
    rw [hunits, Store.unit]

end

section
variable {s : State} {b : Bank} {u m v num : Nat} {data left : List Byte} {q : List BankJob} {x : JournalRecord}
  {xs : List JournalRecord} {w : Writer} {r : Request}

/-- A failed slot whose record leads to another operation asks for that operation, and no number is given (R128). -/
theorem failedSlot_asks {recs : List JournalRecord} {op : BankOp} {a : CuAwait} {write : Option Nat} (hon : s.part.on = true)
    (hbank : s.part.store.queue b = { client := .catalogue, op := .programSlot u m data } :: q)
    (hA : s.part.cat.await = some (.slot recs num w)) (hu : u < s.part.store.units.length)
    (hput : putSlot true recs num w (slotFailed b u m left s.part) =
      issue op a ((slotFailed b u m left s.part).withCat fun c => { c with writeUnit := write })) :
    ∃ t, exec (.slotProgramDone b (.failed left)) s = .next t ∧ (t.part.store.unit u).bad = true ∧
      t.part.cat.badWaiting = s.part.cat.badWaiting ++ [u] ∧ t.part.cat.await = some a ∧
      (t.part.store.queue (bankOf op.unit)).getLast? = some { client := .catalogue, op := op } ∧
      t.part.cat.nextSeq = s.part.cat.nextSeq ∧ t.part.cat.entries = s.part.cat.entries ∧ t.pending = s.pending := by
  have hexec := endSlotProgram_failed (left := left) hon hbank hA
  rw [hput, cuWork_asked] at hexec
  refine ⟨_, apply_of_eq hexec, (askedAfter_bad u).trans (by rw [Part.withCat_store, (slotFailed_badToo hu).bad]),
    (congrArg CatUnit.badWaiting askedAfter_cat).trans rfl, (congrArg CatUnit.await askedAfter_cat).trans rfl, askedAfter_queue,
    (congrArg CatUnit.nextSeq askedAfter_cat).trans rfl, (congrArg CatUnit.entries askedAfter_cat).trans rfl, rfl⟩

/-- The record is asked for again in the next good unit, at once or after its erase (R128, log 20). -/
theorem failedSlot_again (hon : s.part.on = true)
    (hbank : s.part.store.queue b = { client := .catalogue, op := .programSlot u m data } :: q)
    (hA : s.part.cat.await = some (.slot (x :: xs) num w)) (hW : s.part.cat.writeUnit = some u)
    (hu : u < s.part.store.units.length)
    (hnext : nextGood ((s.part.store.setQueue b q).modify u fun y => { y with bad := true }) u = some v) (hne : u ≠ v)
    (hroom : (s.part.store.unit v).slots = 0 ∨
      ∃ f ∈ goodRecords s.part.store, f ≠ u ∧ (s.part.store.unit f).slots < Config.slotsPerUnit) :
    ∃ t, exec (.slotProgramDone b (.failed left)) s = .next t ∧ (t.part.store.unit u).bad = true ∧
      t.part.cat.badWaiting = s.part.cat.badWaiting ++ [u] ∧
      (if (s.part.store.unit v).slots = 0 then
        t.part.cat.await = some (.slot (x :: xs) num w) ∧
        (t.part.store.queue (bankOf v)).getLast? = some { client := .catalogue, op := .programSlot v 0 (slotEncode num x) }
      else
        t.part.cat.await = some (.ringErase (x :: xs) num w true) ∧
        (t.part.store.queue (bankOf v)).getLast? = some { client := .catalogue, op := .eraseUnit v }) ∧
      t.part.cat.nextSeq = s.part.cat.nextSeq ∧ t.part.cat.entries = s.part.cat.entries ∧ t.pending = s.pending := by
  have hfailed : BadToo s.part.store (slotFailed b u m left s.part).store u := slotFailed_badToo hu
  have hnext' : nextGood (slotFailed b u m left s.part).store u = some v := (hfailed.nextGood_eq (modify_badToo hu) u).trans hnext
  have hslots : ((slotFailed b u m left s.part).store.unit v).slots = (s.part.store.unit v).slots := by
    rw [hfailed.others v hne.symm]
  have hplace : slotPlace (slotFailed b u m left s.part).store (slotFailed b u m left s.part).cat.writeUnit true =
      placeBeyond (slotFailed b u m left s.part).store u true := by
    rw [show (slotFailed b u m left s.part).cat.writeUnit = some u from hW, slotPlace_again]
  by_cases h0 : (s.part.store.unit v).slots = 0
  · have hput := putSlot_here (recs := x :: xs) (num := num) (w := w)
      (hplace.trans (placeBeyond_empty hnext' (hslots.trans h0)))
    rw [hslots, h0] at hput
    obtain ⟨t, hexec, hbad, hwaiting, hawait, hqueue, hkept⟩ := failedSlot_asks hon hbank hA hu hput
    exact ⟨t, hexec, hbad, hwaiting, by rw [if_pos h0]; exact ⟨hawait, hqueue⟩, hkept⟩
  · have hput := putSlot_afterErase (recs := x :: xs) (num := num) (w := w)
      (hplace.trans (placeBeyond_programmed hnext' (by rwa [hslots]) (hfailed.anyFreeSlot_iff.2 (hroom.resolve_left h0))))
    obtain ⟨t, hexec, hbad, hwaiting, hawait, hqueue, hkept⟩ := failedSlot_asks hon hbank hA hu hput
    exact ⟨t, hexec, hbad, hwaiting, by rw [if_neg h0]; exact ⟨hawait, hqueue⟩, hkept⟩

/-- The part of an ENROL whose record cannot be written, its completion still to come: the number is given back, the cause raised, no
BAD record left to write (R127). -/
def enrolGivenUp (num : Nat) (p : Part) : Part :=
  ((p.withCat fun c => { c with nextSeq := num }).raise .storeFault).withCat fun c => { c with badWaiting := [] }

theorem journalFull_enrol (p : Part) : journalFull .enrol (p.withCat fun c => { c with nextSeq := num }) =
    finishWith .storeFault [] (enrolGivenUp num p) := rfl

theorem enrolGivenUp_store (p : Part) : (finishWith .storeFault [] (enrolGivenUp num p)).store = p.store := rfl

/-- Giving up touches neither Rule Memory nor the line nor host memory, and the failed slot has not either. -/
theorem enrolGivenUp_frame (p : Part) :
    (finishWith .storeFault [] (enrolGivenUp num (slotFailed b u m left p))).rules = p.rules ∧
    (finishWith .storeFault [] (enrolGivenUp num (slotFailed b u m left p))).line = p.line ∧
    (finishWith .storeFault [] (enrolGivenUp num (slotFailed b u m left p))).host = p.host := by
  simp [finishWith, onlyDo, enrolGivenUp, slotFailed, waitBad, outcomeTaken, finishHead]

/-- Finishing is what is to be done already. -/
theorem finishWith_same {p : Part} {code : Code} {items : List (Nat × List Byte)}
    (h : p.cat.todo = [.finish code (resultArea items)]) : finishWith code items p = p := by
  rw [finishWith, ← h]
  rfl

@[simp] theorem freeTested_att (old p : Part) : (freeTested old p).att = p.att :=
  freeTested_frame _ p (fun _ => rfl) (fun _ => rfl) old

section
variable {p : Part} {code : Code} {items : List (Nat × List Byte)}

theorem isPending_of_att {p q : Part} (h : q.att = p.att) (c : Cause) : q.isPending c = p.isPending c := by
  rw [Part.isPending, h, Part.isPending]

/-- A request that finishes at once raises no cause. -/
theorem cuWork_finishWith_att (hA : p.cat.await = none) (hR : p.cat.req = some r) :
    (cuWork (finishWith code items p)).att = p.att := by
  rw [cuWork_finishWith code items hA hR, cuSettle_att]
  rfl

/-- A request that finishes at once leaves the bad-unit list as it is. -/
theorem cuWork_finishWith_bad (hA : p.cat.await = none) (hR : p.cat.req = some r) (u : Nat) :
    ((cuWork (finishWith code items p)).store.unit u).bad = (p.store.unit u).bad := by
  rw [cuWork_finishWith code items hA hR, cuSettle_bad]
  rfl

end

/-- Without a free slot in a good unit the journal is full, and an ENROL ends STORE_FAULT (R127, R128, log 47). -/
theorem failedSlot_full (hon : s.part.on = true)
    (hbank : s.part.store.queue b = { client := .catalogue, op := .programSlot u m data } :: q)
    (hA : s.part.cat.await = some (.slot [x] num .enrol)) (hW : s.part.cat.writeUnit = some u)
    (hu : u < s.part.store.units.length) (hR : s.part.cat.req = some r)
    (hfull : ∀ f ∈ goodRecords s.part.store, f ≠ u → Config.slotsPerUnit ≤ (s.part.store.unit f).slots) :
    ∃ t, exec (.slotProgramDone b (.failed left)) s = .next t ∧ (t.part.store.unit u).bad = true ∧
      EndsRequest s t r s.part.cat.queue .storeFault emptyResult ∧ t.part.isPending .storeFault = true ∧
      t.part.cat.nextSeq = num ∧ t.part.cat.entries = s.part.cat.entries ∧ t.part.rules = s.part.rules ∧ t.part.line = s.part.line ∧
      t.part.host = s.part.host := by
  have hfailed : BadToo s.part.store (slotFailed b u m left s.part).store u := slotFailed_badToo hu
  have hnone : anyFreeSlot (slotFailed b u m left s.part).store = false := Bool.eq_false_iff.2 fun hfree => by
    obtain ⟨f, hf, hne, hlt⟩ := hfailed.anyFreeSlot_iff.1 hfree
    exact Nat.not_lt.2 (hfull f hf hne) hlt
  have hput := putSlot_nowhere (recs := [x]) (num := num) (w := .enrol) (p := slotFailed b u m left s.part) (again := true) (by
    rw [show (slotFailed b u m left s.part).cat.writeUnit = some u from hW, slotPlace_again, placeBeyond_full hnone])
  rw [journalFull_enrol] at hput
  obtain ⟨P, hP⟩ : ∃ P, P = freeTested (finishHead s.part b)
    (finishWith .storeFault [] (enrolGivenUp num (slotFailed b u m left s.part))) := ⟨_, rfl⟩
  have hcat : P.cat = { s.part.cat with
      await := none, nextSeq := num, badWaiting := [], todo := [.finish .storeFault emptyResult] } := by
    rw [hP, freeTested_cat]
    rfl
  have hA' : P.cat.await = none := by rw [hcat]
  have hR' : P.cat.req = some r := by rw [hcat, hR]
  have hfinish : finishWith .storeFault [] P = P := finishWith_same (by rw [hcat]; rfl)
  have hbad : (P.store.unit u).bad = true := by
    rw [hP, freeTested_bad, enrolGivenUp_store, hfailed.bad]
  obtain ⟨hwork, hends⟩ := endsRequest_of_finish (s := s) (rest := s.part.cat.queue) (code := .storeFault) (items := []) hA' hR'
    (by rw [hcat]) (by rw [hP, freeTested_completions]; rfl)
  have hexec : endSlotProgram b (.failed left) s.part = cuWork (finishWith .storeFault [] P) := by
    rw [endSlotProgram_failed hon hbank hA, hput, ← hP, hfinish]
  obtain ⟨hrules, hline, hhost⟩ := enrolGivenUp_frame (num := num) (b := b) (u := u) (m := m) (left := left) s.part
  refine ⟨_, apply_of_eq hexec, ?_, hends, ?_, hwork.nextSeq.trans ?_, hwork.entries.trans ?_, hwork.rules.trans ?_,
    hwork.line.trans ?_, hwork.host.trans ?_⟩
  · rw [cuWork_finishWith_bad hA' hR', hbad]
  · have hatt : (cuWork (finishWith .storeFault [] P)).att = ((slotFailed b u m left s.part).raise .storeFault).att := by
      rw [cuWork_finishWith_att hA' hR', hP, freeTested_att]
      rfl
    exact (isPending_of_att hatt .storeFault).trans (Part.raise_isPending _ .storeFault)
  · rw [hcat]
  · rw [hcat]
  · rw [hP, freeTested_rules, hrules]
  · rw [hP, freeTested_line, hline]
  · rw [hP, freeTested_host, hhost]

end

/-- Settles O48: the next good unit takes the record again, or there is no free slot and the journal is full (R127, R128). -/
theorem failedSlotIsWrittenAgain : Obligations.FailedSlotIsWrittenAgain :=
  ⟨fun _ _ _ _ _ _ _ _ _ _ _ _ hon hbank hA hW hu hnext hne hroom => failedSlot_again hon hbank hA hW hu hnext hne hroom,
    fun _ _ _ _ _ _ _ _ _ _ hon hbank hA hW hu hR hfull => failedSlot_full hon hbank hA hW hu hR hfull⟩

end Sys2Proof.Machine
end

section
/-! How FORMAT_STORE begins (R92, R103, R137, R138). -/
namespace Sys2Proof.Machine

/-! ## CONFORM outside RUNNING -/

section
variable {p : Part}

/-- CONFORM asserted and its condition gone: the recomputation raises CONFORM_LOST (R103). -/
theorem driveConform_isPending (hc : p.line.conform = true) (h : conformCondition p = false) :
    (driveConform p).isPending .conformLost = true := by
  simp only [driveConform, hc, h, Bool.not_false, Bool.and_self, if_true]
  exact Part.raise_isPending _ .conformLost

theorem conformCondition_unready (h : p.line.state = .unready) : conformCondition p = false := by
  simp [conformCondition, h]

/-- Outside RUNNING the recomputation deasserts CONFORM (R103). -/
theorem recompute_unready (h : p.line.state = .unready) :
    (recompute p).line.conform = false ∧ (p.line.conform = true → (recompute p).isPending .conformLost = true) := by
  unfold recompute
  dsimp only
  split <;>
  · refine ⟨?_, fun hc => driveConform_isPending hc (conformCondition_unready h)⟩
    rw [handOver_line, (driveConform_frame _).1]
    exact conformCondition_unready h

end

@[simp] theorem cuSettle_device (p : Part) : (cuSettle p).device = p.device := cuSettle_frame _ p (fun _ => rfl) (fun _ => rfl)

/-! ## The passage into FORMATTING -/

/-- What stands of the part in FORMATTING, the line's and the device's share (R92, R103, R137). -/
structure Formatting (p q : Part) : Prop where
  device      : q.device = .formatting
  lineState   : q.line.state = .unready
  deadline    : q.line.deadline = none
  conform     : q.line.conform = false
  epoch       : q.line.epoch = p.line.epoch
  conformLost : p.line.conform = true → q.isPending .conformLost = true
  runFlag     : q.store.runFlag = false

section
variable {p q q' : Part}

/-- What leaves the device, the causes, the run flag and all of the line but its stations as they are keeps the part in FORMATTING. -/
theorem Formatting.of_frame {stations : List Station} (h : Formatting p q) (hdevice : q'.device = q.device)
    (hline : q'.line = { q.line with stations := stations }) (hatt : q'.att = q.att) (hrun : q'.store.runFlag = q.store.runFlag) :
    Formatting p q' where
  device := hdevice.trans h.device
  lineState := by rw [hline]; exact h.lineState
  deadline := by rw [hline]; exact h.deadline
  conform := by rw [hline]; exact h.conform
  epoch := by rw [hline]; exact h.epoch
  conformLost hc := (isPending_of_att hatt .conformLost).trans (h.conformLost hc)
  runFlag := hrun.trans h.runFlag

/-- The part in FORMATTING before its recomputation: the line UNREADY, and LINE_STATE raised where that is a change (R92). -/
def lineStopped (p : Part) : Part :=
  let p' := { p with
    device := .formatting, line := { p.line with state := .unready, active := none, target := none, deadline := none } }
  if p.line.state = .unready ∧ p.line.active = none ∧ p.line.target = none then p' else p'.raise .lineState

theorem enterFormatting_eq (p : Part) : enterFormatting p = recompute ((lineStopped p).withStore Store.stopRun) := rfl

/-- What stopping the line raises is LINE_STATE alone. -/
theorem lineStopped_frame (p : Part) : (lineStopped p).device = .formatting ∧
    (lineStopped p).line = { p.line with state := .unready, active := none, target := none, deadline := none } ∧
    (lineStopped p).store = p.store ∧ (lineStopped p).cat = p.cat ∧ (lineStopped p).host = p.host := by
  unfold lineStopped
  dsimp only
  split <;> exact ⟨rfl, rfl, rfl, rfl, rfl⟩

theorem enterFormatting_store (p : Part) : (enterFormatting p).store = p.store.stopRun := by
  obtain ⟨-, -, hstore, -, -⟩ := lineStopped_frame p
  rw [enterFormatting_eq, recompute_store, Part.withStore_store, hstore]

theorem enterFormatting_cat (p : Part) : (enterFormatting p).cat = p.cat := by
  obtain ⟨-, -, -, hcat, -⟩ := lineStopped_frame p
  rw [enterFormatting_eq, recompute_cat, Part.withStore_cat, hcat]

theorem enterFormatting_host (p : Part) : (enterFormatting p).host = p.host := by
  obtain ⟨-, -, -, -, hhost⟩ := lineStopped_frame p
  rw [enterFormatting_eq, recompute_host, Part.withStore_host, hhost]

theorem enterFormatting_formatting (p : Part) : Formatting p (enterFormatting p) := by
  obtain ⟨hdevice, hline, -, -, -⟩ := lineStopped_frame p
  have hstate : ((lineStopped p).withStore Store.stopRun).line.state = .unready := by rw [Part.withStore_line, hline]
  obtain ⟨hconform, hlost⟩ := recompute_unready hstate
  refine ⟨?_, ?_, ?_, hconform, ?_, fun hc => hlost ?_, ?_⟩
  · rw [enterFormatting_eq, recompute_device, Part.withStore_device, hdevice]
  · rw [enterFormatting_eq, recompute_lineState, hstate]
  · rw [enterFormatting_eq, recompute_lineDeadline, Part.withStore_line, hline]
  · rw [enterFormatting_eq, recompute_lineEpoch, Part.withStore_line, hline]
  · rw [Part.withStore_line, hline, hc]
  · rw [enterFormatting_store]
    rfl

end

/-! ## What FORMAT_STORE has still to do -/

/-- The part once FORMAT_STORE has begun, with the fuse list taken as the bad-unit list (R137, step 1 of R138). -/
def formatBegun (p : Part) : Part :=
  ((enterFormatting p).withStore takeFuses).withCat fun c => { c with badWaiting := [], snapDone := false }

/-- The units of steps 2 and 3 of R138, in the order of their erase. -/
def formatErases (s : Store) : List Nat := snapshotUnits s ++ programmedUnits s

theorem beginFormat_idle {p : Part} (r : Request) (hbusy : p.engine.busy = false) (hT : p.cat.todo = []) :
    beginFormat r p = onlyDo [.erase (formatErases (formatBegun p).store) .formatting, .formatWrite] (formatBegun p) := by
  have hT' : (formatBegun p).cat.todo = [] := by simp [formatBegun, enterFormatting_cat, hT]
  rw [beginFormat, hbusy, if_neg Bool.false_ne_true]
  exact congrArg (fun ops => onlyDo (_ :: _ :: ops) (formatBegun p)) hT'

theorem beginFormat_busy {p : Part} (r : Request) (hbusy : p.engine.busy = true) : beginFormat r p = finishWith .busy [] p := by
  rw [beginFormat, if_pos hbusy, fail]

section
variable {p : Part} {u : Nat}

theorem takeFuses_unit {s : Store} (h : u < s.units.length) :
    (takeFuses s).unit u = { s.unit u with bad := decide (u ∈ s.fuses) } := by
  simp [takeFuses, Store.unit, List.getD_eq_getElem?_getD, List.getElem?_mapIdx, List.getElem?_eq_getElem h]

theorem formatBegun_store (p : Part) : (formatBegun p).store = takeFuses p.store.stopRun := by
  rw [formatBegun, Part.withCat_store, Part.withStore_store, enterFormatting_store]

/-- In FORMATTING a unit is bad where the fuse list names it; its mode and its counts are as they were (R138). -/
theorem formatBegun_unit (h : u < p.store.units.length) : (formatBegun p).store.unit u =
    { p.store.unit u with passed := false, bad := decide (u ∈ p.store.fuses) } := by
  rw [formatBegun_store, takeFuses_unit (by simpa [Store.stopRun] using h), stopRun_unit]
  rfl

theorem formatBegun_cat (p : Part) : (formatBegun p).cat = { p.cat with badWaiting := [], snapDone := false } := by
  rw [formatBegun, Part.withCat_cat, Part.withStore_cat, enterFormatting_cat]

theorem formatBegun_host (p : Part) : (formatBegun p).host = p.host := by
  rw [formatBegun, Part.withCat_host, Part.withStore_host, enterFormatting_host]

theorem formatBegun_formatting (p : Part) : Formatting p (formatBegun p) :=
  (enterFormatting_formatting p).of_frame (stations := (enterFormatting p).line.stations) (by simp [formatBegun])
    (by simp [formatBegun]) (by simp [formatBegun]) (by simp [formatBegun, takeFuses])

/-- A good unit with a programmed page is erased (steps 2 and 3 of R138). -/
theorem mem_formatErases {s : Store} (hu : u < 1024) (hbad : (s.unit u).bad = false) (hpages : 0 < (s.unit u).pages) :
    u ∈ formatErases s := by
  by_cases hsnap : u ∈ snapshotUnits s
  · exact List.mem_append_left _ hsnap
  · refine List.mem_append_right _ (List.mem_filter.2 ⟨List.mem_range.2 hu, ?_⟩)
    simp [hbad, hpages, hsnap]

/-- With no page programmed in a good unit nothing is erased. -/
theorem formatErases_nil {s : Store} (h : ∀ u < 1024, (s.unit u).bad = false → (s.unit u).pages = 0 ∧ (s.unit u).slots = 0) :
    formatErases s = [] := by
  have hsnap : snapshotUnits s = [] := by
    have hfound : ∀ u ∈ List.range Config.maxRecordUnits,
        (decide ((s.unit u).mode = .record) && !(s.unit u).bad && !(snapBegins s u).isEmpty) = false := by
      intro u hu
      have hu' : u < 1024 := Nat.lt_trans (List.mem_range.1 hu) (by decide)
      cases hbad : (s.unit u).bad with
      | true => simp
      | false => simp [snapBegins, (h u hu' hbad).2]
    rw [snapshotUnits, List.filterMap_eq_nil_iff.2 fun u hu => by rw [hfound u hu, if_neg Bool.false_ne_true]]
    rfl
  have hprog : programmedUnits s = [] := by
    refine List.filter_eq_nil_iff.2 fun u hu => ?_
    cases hbad : (s.unit u).bad with
    | true => simp
    | false => simp [(h u (List.mem_range.1 hu) hbad).1]
  rw [formatErases, hsnap, hprog, List.nil_append]

end

/-! ## The first operation -/

section
variable {p q : Part} {op : CuOp} {ops rest : List CuOp}

/-- One operation of a known list, where it leaves the FREE count as it is. -/
theorem cuRun_onlyDo (n : Nat) (hA : p.cat.await = none) (h : workOp op (onlyDo rest p) = onlyDo ops q)
    (hfree : q.store.freeCount = p.store.freeCount) : cuRun (n + 1) (onlyDo (op :: rest) p) = cuRun n (onlyDo ops q) :=
  cuRun_steady (p := onlyDo (op :: rest) p) n hA rfl h hfree

/-- A list of erases of FORMAT_STORE begins with its first unit, whatever that holds (R138). -/
theorem cuWork_formatErase {u : Nat} {more : List Nat} (hA : p.cat.await = none) (hW : p.cat.work ≠ .idle) :
    cuWork (onlyDo (.erase (u :: more) .formatting :: rest) p) =
      handOver (issue (.eraseUnit u) (.erase u more .formatting) (onlyDo rest p)) := by
  have hop : workOp (.erase (u :: more) .formatting) (onlyDo rest p) =
      issue (.eraseUnit u) (.erase u more .formatting) (onlyDo rest p) := by
    simp [workOp, eraseNext, mayErase]
  rw [cuWork, show Config.workBound = 8191 + 1 from rfl,
    cuRun_steady (p := onlyDo (.erase (u :: more) .formatting :: rest) p) _ hA rfl hop (ask_freeCount ..), cuRun_awaiting _ rfl]
  exact cuSettle_working hW

/-- R set and the write position with it (R138, step 5). -/
def areaTaken (R : Nat) (p : Part) : Part :=
  { p with
    store := { p.store with recordSize := some R }
    cat := { p.cat with
      writeUnit := (goodRecords { p.store with recordSize := some R }).head?, fresh := [], snapDone := false } }

/-- The items of the empty snapshot after SNAP_BEGIN (R138, step 6). -/
def emptySnapshot (R : Nat) (s : Store) : List SnapItem := badItems { s with recordSize := some R } ++ [.param]

theorem formatWrite_eq {R : Nat} {r : Request} (hR : p.cat.req = some r) (harea : takenArea r.recordArea = R) :
    workOp .formatWrite (onlyDo [] p) =
      onlyDo [.snapItems (.start :: emptySnapshot R p.store) 0, .formatEmpty] (areaTaken R p) := by
  have hreq : takenArea (((onlyDo [] p).cat.req.map Request.recordArea).getD 0) = R := by
    rw [show (onlyDo [] p).cat.req = some r from hR]
    exact harea
  rw [workOp, formatWrite, hreq]
  rfl

/-- A snapshot begins with SNAP_BEGIN, which carries R (R130). -/
theorem snapItems_start {R : Nat} (items : List SnapItem) (h : p.store.recordSize = some R) :
    workOp (.snapItems (.start :: items) 0) (onlyDo rest p) =
      onlyDo (.write [.snapBegin R] .snapshotPart :: .snapItems items 0 :: rest) (snapRead p .start) := by
  rw [← Option.getD_some (a := R) (b := 0), ← h]
  rfl

theorem ask_runFlag_recordSize (s : Store) (c : Client) (op : BankOp) :
    (s.ask c op).runFlag = s.runFlag ∧ (s.ask c op).recordSize = s.recordSize := by
  unfold Store.ask Store.setQueue
  dsimp only
  split <;> exact ⟨rfl, rfl⟩

/-- A record is programmed in the place the ring gives, whatever room is left (R125). -/
theorem putRecord_placed {u : Nat} (recs : List JournalRecord) (w : Writer)
    (hplace : slotPlace p.store p.cat.writeUnit false = .here u) (hseq : p.cat.nextSeq ≤ top32) :
    putRecord recs w p = putInUnit p u recs w := by
  rw [putRecord, if_neg (Nat.not_lt.2 hseq)]
  exact putSlot_here hplace

theorem slotPlace_here {s : Store} {u : Nat} (hgood : (s.unit u).bad = false) (hfree : (s.unit u).slots < Config.slotsPerUnit) :
    slotPlace s (some u) false = .here u := by
  simp [slotPlace, hgood, hfree]

/-- The first good unit of the record area is the write position (R138, step 5). -/
theorem goodRecords_head {s : Store} {R v : Nat} (hsize : s.recordSize = some R) (hv : v < R) (hgood : (s.unit v).bad = false)
    (hbefore : ∀ w < v, (s.unit w).bad = true) : (goodRecords s).head? = some v := by
  rw [goodRecords, hsize, Option.getD_some, List.head?_filter, List.find?_range_eq_some]
  exact ⟨by simp [hgood], List.mem_range.2 hv, fun w hw => by simp [hbefore w hw]⟩

/-- The part once SNAP_BEGIN is asked for in unit v (R138, step 6). -/
def snapBeginAsked (R v : Nat) (p : Part) : Part :=
  putInUnit (onlyDo [.snapItems (emptySnapshot R p.store) 0, .formatEmpty] (snapRead (areaTaken R p) .start)) v [.snapBegin R]
    .snapshotPart

theorem snapBeginAsked_store (R v : Nat) (p : Part) : (snapBeginAsked R v p).store =
    ({ p.store with recordSize := some R } : Store).ask .catalogue
      (.programSlot v (p.store.unit v).slots (slotEncode p.cat.nextSeq (.snapBegin R))) := rfl

theorem snapBeginAsked_bad (R v : Nat) (p : Part) (u : Nat) :
    ((snapBeginAsked R v p).store.unit u).bad = (p.store.unit u).bad := by
  rw [snapBeginAsked_store, ask_unit]
  rfl

theorem snapBeginAsked_await (R v : Nat) (p : Part) :
    (snapBeginAsked R v p).cat.await = some (.slot [.snapBegin R] p.cat.nextSeq .snapshotPart) := rfl

theorem snapBeginAsked_frame (R v : Nat) (p : Part) : (snapBeginAsked R v p).cat.queue = p.cat.queue ∧
    (snapBeginAsked R v p).cat.req = p.cat.req ∧ (snapBeginAsked R v p).host = p.host ∧
    (snapBeginAsked R v p).device = p.device ∧ (snapBeginAsked R v p).att = p.att := by
  simp [snapBeginAsked, putInUnit, issue, onlyDo, snapRead, areaTaken]

/-- The place of SNAP_BEGIN is the first good unit, whose slots are free (R138). -/
theorem slotPlace_areaTaken {R v : Nat} (hv : v < R) (hgood : (p.store.unit v).bad = false) (hslots : (p.store.unit v).slots = 0)
    (hbefore : ∀ w < v, (p.store.unit w).bad = true) :
    slotPlace (areaTaken R p).store (areaTaken R p).cat.writeUnit false = .here v := by
  have hhead : (areaTaken R p).cat.writeUnit = some v := goodRecords_head rfl hv hgood hbefore
  have hfree : (p.store.unit v).slots < Config.slotsPerUnit := by
    rw [hslots]
    decide
  rw [hhead]
  exact slotPlace_here hgood hfree

/-- With nothing to erase FORMAT_STORE goes on to its first record, SNAP_BEGIN (R138). -/
theorem cuWork_emptySnapshot {R v : Nat} {r : Request} (hA : p.cat.await = none) (hW : p.cat.work ≠ .idle)
    (hR : p.cat.req = some r) (harea : takenArea r.recordArea = R)
    (hplace : slotPlace (areaTaken R p).store (areaTaken R p).cat.writeUnit false = .here v) (hseq : p.cat.nextSeq ≤ top32) :
    cuWork (onlyDo [.erase [] .formatting, .formatWrite] p) = handOver (snapBeginAsked R v p) := by
  have hput : workOp (.write [.snapBegin R] .snapshotPart)
      (onlyDo [.snapItems (emptySnapshot R p.store) 0, .formatEmpty] (snapRead (areaTaken R p) .start)) = snapBeginAsked R v p :=
    putRecord_placed (p := onlyDo _ (snapRead (areaTaken R p) .start)) _ _ hplace hseq
  rw [cuWork, show Config.workBound = 8188 + 1 + 1 + 1 + 1 from rfl,
    cuRun_onlyDo (p := p) (q := p) _ hA (ops := [.formatWrite]) rfl rfl,
    cuRun_onlyDo (p := p) _ hA (formatWrite_eq hR harea) rfl,
    cuRun_onlyDo (p := areaTaken R p) _ hA (snapItems_start _ rfl) rfl,
    cuRun_steady (p := onlyDo _ (snapRead (areaTaken R p) .start)) _ hA rfl hput (ask_freeCount ..), cuRun_awaiting _ rfl]
  exact cuSettle_working hW

end

/-! ## The beginning of FORMAT_STORE -/

section
variable {s : State} {r : Request} {rest : List Request}

theorem formatStore_passes (hk : r.kind = .formatStore)
    (hd : s.part.device = .ready ∨ s.part.device = .unformatted) (ho : r.origin = 1#8) (hkey : r.keyOn = true) :
    openingTests s.part r = none := by
  refine openingTests_none (hd.imp_right fun h => ⟨h, .inl hk⟩) (by simp [Request.originValid, ho]) ?_ (fun _ => hkey)
    (frozen_of_none (by simp [frozenFormat, hk]))
  simp [hk, Kind.permits, Request.supervisor, ho]

/-- The part with its FORMAT_STORE taken, in FORMATTING. -/
def formatTaken (s : State) (r : Request) (rest : List Request) : Part := formatBegun (takeHead s.part r rest)

theorem formatTaken_cat (s : State) (r : Request) (rest : List Request) : (formatTaken s r rest).cat =
    { s.part.cat with
      queue := rest, work := .request, req := some r, todo := [], beginFirst := false, dropped := 0, ceased := 0, badWaiting := []
      snapDone := false } := by
  rw [formatTaken, formatBegun_cat, takeHead_cat]

theorem formatTaken_host (s : State) (r : Request) (rest : List Request) : (formatTaken s r rest).host = s.part.host := by
  rw [formatTaken, formatBegun_host, takeHead_host]

theorem formatTaken_store (s : State) (r : Request) (rest : List Request) :
    (formatTaken s r rest).store = takeFuses s.part.store.stopRun := by
  rw [formatTaken, formatBegun_store, takeHead_store]

theorem formatTaken_unit {u : Nat} (h : u < s.part.store.units.length) : (formatTaken s r rest).store.unit u =
    { s.part.store.unit u with passed := false, bad := decide (u ∈ s.part.store.fuses) } := by
  rw [formatTaken, formatBegun_unit (by rwa [takeHead_store]), takeHead_store]

theorem formatTaken_formatting (s : State) (r : Request) (rest : List Request) : Formatting s.part (formatTaken s r rest) := by
  obtain ⟨hdevice, hstate, hdeadline, hconform, hepoch, hlost, hrun⟩ := formatBegun_formatting (takeHead s.part r rest)
  rw [takeHead_line] at hepoch hlost
  exact ⟨hdevice, hstate, hdeadline, hconform, hepoch, hlost, hrun⟩

/-- FORMAT_STORE with the Check Engine idle works on from the part in FORMATTING (R137, R138). -/
theorem exec_formatStore_idle (hturn : RequestTurn s r rest) (hk : r.kind = .formatStore)
    (htests : openingTests s.part r = none) (hbusy : s.part.engine.busy = false) : exec .formatStore s =
      .next { s with
        part := cuWork (onlyDo [.erase (formatErases (formatTaken s r rest).store) .formatting, .formatWrite]
          (formatTaken s r rest)) } :=
  exec_begins (go := beginFormat) hturn (isKind_of_eq hk) htests
    (beginFormat_idle r (by rw [takeHead_engine, hbusy]) (by rw [takeHead_cat]))

theorem formatStore_erases (hturn : RequestTurn s r rest) (hk : r.kind = .formatStore)
    (htests : openingTests s.part r = none) (hbusy : s.part.engine.busy = false)
    (hprog : ∃ u < 1024, u ∉ s.part.store.fuses ∧ 0 < (s.part.store.unit u).pages) :
    ∃ t, exec .formatStore s = .next t ∧ Formatting s.part t.part ∧
      (∃ u more, t.part.cat.await = some (.erase u more .formatting)) ∧ t.part.cat.queue = rest ∧ t.part.cat.req = some r ∧
      t.part.host = s.part.host ∧ t.pending = s.pending := by
  obtain ⟨v, hv, hfuse, hpages⟩ := hprog
  have hlen : v < s.part.store.units.length := by
    refine Nat.not_le.1 fun hle => ?_
    rw [Store.unit, List.getD_eq_getElem?_getD, List.getElem?_eq_none hle] at hpages
    exact absurd hpages (by decide)
  have hmem : v ∈ formatErases (formatTaken s r rest).store := by
    refine mem_formatErases hv ?_ ?_ <;> rw [formatTaken_unit hlen]
    · exact decide_eq_false hfuse
    · exact hpages
  obtain ⟨u, more, hlist⟩ := List.exists_cons_of_ne_nil (List.ne_nil_of_mem hmem)
  have hexec := exec_formatStore_idle hturn hk htests hbusy
  have hcat := formatTaken_cat s r rest
  rw [hlist, cuWork_formatErase (by rw [hcat]; exact hturn.await_none) (by rw [hcat]; exact CuWork.noConfusion)] at hexec
  refine ⟨_, hexec, ?_, ⟨u, more, rfl⟩, ?_, ?_, ?_, rfl⟩
  · refine (formatTaken_formatting s r rest).of_frame (stations := (formatTaken s r rest).line.stations) ?_ ?_ ?_ ?_
    · simp [issue, onlyDo]
    · simp [issue, onlyDo]
    · simp [issue, onlyDo]
    · exact (ask_runFlag_recordSize ..).1
  · simp [issue, onlyDo, hcat]
  · simp [issue, onlyDo, hcat]
  · simp [issue, onlyDo, formatTaken_host]

/-- The record area that R137 takes for a requested size. -/
theorem takenArea_eq (n : Nat) : takenArea n = if n = 0 then 32 else max 24 (min 64 n) := by
  rw [takenArea, clampTo, Config.defaultRecordUnits, Config.minRecordUnits, Config.maxRecordUnits]
  refine ite_congr rfl (fun _ => rfl) fun _ => ?_
  split
  · omega
  · split <;> omega

theorem takenArea_le (n : Nat) : takenArea n ≤ 64 := by
  rw [takenArea_eq]
  split <;> omega

theorem snapBeginAsked_formatting {p q : Part} {R v : Nat} (h : Formatting p q) : Formatting p (handOver (snapBeginAsked R v q)) := by
  obtain ⟨-, -, -, hdevice, hatt⟩ := snapBeginAsked_frame R v q
  refine h.of_frame (stations := (snapRead (areaTaken R q) .start).line.stations) hdevice ?_ hatt ?_
  · simp [snapBeginAsked, putInUnit, issue, onlyDo, snapRead, areaTaken]
  · exact (ask_runFlag_recordSize ..).1

theorem formatStore_snapBegin {R v : Nat} (hturn : RequestTurn s r rest) (hk : r.kind = .formatStore)
    (htests : openingTests s.part r = none) (hbusy : s.part.engine.busy = false) (hlen : s.part.store.units.length = 1024)
    (hblank : ∀ u < 1024, u ∉ s.part.store.fuses → (s.part.store.unit u).pages = 0 ∧ (s.part.store.unit u).slots = 0)
    (hR : takenArea r.recordArea = R) (hv : v < R) (hfuse : v ∉ s.part.store.fuses) (hfirst : ∀ w < v, w ∈ s.part.store.fuses)
    (hseq : s.part.cat.nextSeq ≤ top32) :
    ∃ t, exec .formatStore s = .next t ∧ Formatting s.part t.part ∧ t.part.store.recordSize = some R ∧
      t.part.cat.await = some (.slot [.snapBegin R] s.part.cat.nextSeq .snapshotPart) ∧
      (t.part.store.queue (bankOf v)).getLast? =
        some { client := .catalogue, op := .programSlot v 0 (slotEncode s.part.cat.nextSeq (.snapBegin R)) } ∧
      (∀ u < 1024, (t.part.store.unit u).bad = decide (u ∈ s.part.store.fuses)) ∧ t.part.cat.queue = rest ∧
      t.part.cat.req = some r ∧ t.part.store.flash = s.part.store.flash ∧ t.part.host = s.part.host ∧ t.pending = s.pending := by
  have hunit : ∀ u < 1024, (formatTaken s r rest).store.unit u =
      { s.part.store.unit u with passed := false, bad := decide (u ∈ s.part.store.fuses) } := fun u hu => formatTaken_unit (hlen ▸ hu)
  have hbad : ∀ u < 1024, ((formatTaken s r rest).store.unit u).bad = decide (u ∈ s.part.store.fuses) := fun u hu => by rw [hunit u hu]
  have hv' : v < 1024 := by
    have := takenArea_le r.recordArea
    omega
  have hslots : ((formatTaken s r rest).store.unit v).slots = 0 := by
    rw [hunit v hv']
    exact (hblank v hv' hfuse).2
  have hnil : formatErases (formatTaken s r rest).store = [] := formatErases_nil fun u hu hgood => by
    rw [hbad u hu, decide_eq_false_iff_not] at hgood
    rw [hunit u hu]
    exact hblank u hu hgood
  have hgood : ((formatTaken s r rest).store.unit v).bad = false := (hbad v hv').trans (decide_eq_false hfuse)
  have hplace := slotPlace_areaTaken hv hgood hslots fun w hw => (hbad w (Nat.lt_trans hw hv')).trans (decide_eq_true (hfirst w hw))
  have hcat := formatTaken_cat s r rest
  have hexec := exec_formatStore_idle hturn hk htests hbusy
  rw [hnil, cuWork_emptySnapshot (by rw [hcat]; exact hturn.await_none) (by rw [hcat]; exact CuWork.noConfusion) (by rw [hcat]) hR hplace
    (by rw [hcat]; exact hseq)] at hexec
  obtain ⟨hqueue, hreq, hhost, -, -⟩ := snapBeginAsked_frame R v (formatTaken s r rest)
  have hstore := snapBeginAsked_store R v (formatTaken s r rest)
  rw [hslots, hcat] at hstore
  refine ⟨_, hexec, snapBeginAsked_formatting (formatTaken_formatting s r rest), ?_, ?_, ?_, fun u hu => ?_, ?_, ?_, ?_, ?_, rfl⟩
  · rw [handOver_store, hstore, (ask_runFlag_recordSize ..).2]
  · rw [handOver_cat, snapBeginAsked_await, hcat]
  · rw [handOver_store, hstore]
    exact (congrArg List.getLast? (ask_queue_same ..)).trans List.getLast?_concat
  · rw [handOver_store, snapBeginAsked_bad, hbad u hu]
  · rw [handOver_cat, hqueue, hcat]
  · rw [handOver_cat, hreq, hcat]
  · rw [handOver_store, hstore, Store.ask_flash, formatTaken_store]
    rfl
  · rw [handOver_host, hhost, formatTaken_host]

/-- FORMAT_STORE with the Check Engine busy ends at once (R137). -/
theorem formatStore_busy (hturn : RequestTurn s r rest) (hk : r.kind = .formatStore)
    (htests : openingTests s.part r = none) (hbusy : s.part.engine.busy = true) :
    ∃ t, exec .formatStore s = .next t ∧ EndsRequest s t r rest .busy emptyResult ∧
      t.part.device = s.part.device ∧ t.part.line = s.part.line ∧ t.part.cat.entries = s.part.cat.entries ∧
      t.part.cat.nextSeq = s.part.cat.nextSeq ∧ t.part.rules = s.part.rules ∧ t.part.att = s.part.att ∧
      t.part.engine = s.part.engine ∧ t.part.store.flash = s.part.store.flash ∧ t.part.host = s.part.host := by
  have hA : (takeHead s.part r rest).cat.await = none := by simpa using hturn.await_none
  have hR : (takeHead s.part r rest).cat.req = some r := by simp
  obtain ⟨hwork, hends⟩ := endsRequest_of_finish (s := s) (rest := rest) (code := .busy) (items := []) hA hR (by simp) (by simp)
  have heq := cuWork_finishWith .busy [] hA hR
  refine ⟨_, exec_begins (go := beginFormat) hturn (isKind_of_eq hk) htests (beginFormat_busy r (by simpa using hbusy)), hends, ?_,
    hwork.line.trans (by simp), hwork.entries.trans (by simp), hwork.nextSeq.trans (by simp), hwork.rules.trans (by simp), ?_,
    hwork.engine.trans (by simp), ?_, hwork.host.trans (by simp)⟩
  · simp [heq, endJob, onlyDo]
  · simp [heq, endJob, onlyDo]
  · simp [heq, endJob, onlyDo]

end

/-- Settles O53: one lemma for the erase that comes first, one for SNAP_BEGIN, one for a busy Check Engine (R137, R138). -/
theorem formatStoreBegins : Obligations.FormatStoreBegins := by
  intro s r rest R v hturn hk hd ho hkey
  have htests := formatStore_passes hk hd ho hkey
  refine ⟨fun hbusy hprog => ?_, fun hbusy hlen hblank hR hv hfuse hfirst hseq => ?_,
    fun hbusy => formatStore_busy hturn hk htests hbusy⟩
  · obtain ⟨t, hexec, hf, hrest⟩ := formatStore_erases hturn hk htests hbusy hprog
    exact ⟨t, hexec, hf.device, hf.lineState, hf.deadline, hf.conform, hf.epoch, hf.conformLost, hf.runFlag, hrest⟩
  · obtain ⟨t, hexec, hf, hrest⟩ := formatStore_snapBegin hturn hk htests hbusy hlen hblank ((takenArea_eq _).trans hR.symm) hv hfuse
      hfirst hseq
    exact ⟨t, hexec, hf.device, hf.lineState, hf.deadline, hf.conform, hf.epoch, hrest⟩

end Sys2Proof.Machine
end

section
/-! RESET#, a power loss and power coming on: what each block holds after it (R124, R139, R161, R162). -/
namespace Sys2Proof.Machine

/-! ## The store after RESET# -/

theorem afterReset_unit (s : Store) (u : Nat) : s.afterReset.unit u = (s.unit u).afterReset := by
  have hmap : s.afterReset.unit u = (s.units.map EraseUnit.afterReset).getD u EraseUnit.blank.afterReset := rfl
  rw [hmap, List.getD_eq_getElem?_getD, List.getElem?_map, Option.getD_map, Store.unit, List.getD_eq_getElem?_getD]

/-- Whatever the store was doing, its volatile items are at their values after RESET# (R124). -/
theorem afterReset_volatiles (s : Store) : StoreVolatilesReset s.afterReset := by
  refine ⟨rfl, rfl, rfl, rfl, rfl, rfl, fun u => ?_⟩
  rw [afterReset_unit]
  exact ⟨rfl, rfl, rfl, rfl, rfl, rfl, rfl, rfl⟩

theorem tearOne_fuses (t : Torn) (job : Option BankJob) (s : Store) : (tearOne t job s).fuses = s.fuses := by
  unfold tearOne
  split <;> rfl

section
variable {p : Part} (torn : TornOps)

theorem resetPart_fuses : (resetPart torn p).store.fuses = p.store.fuses := (tearOne_fuses ..).trans (tearOne_fuses ..)

/-- With nothing in progress on either bank the flash, and what it records of each unit, stay (R106, R124). -/
theorem resetPart_flash_stays (h0 : p.store.bank0 = []) (h1 : p.store.bank1 = []) :
    (resetPart torn p).store.flash = p.store.flash ∧ ∀ u, ((resetPart torn p).store.unit u).mode = (p.store.unit u).mode ∧
      ((resetPart torn p).store.unit u).pages = (p.store.unit u).pages ∧
      ((resetPart torn p).store.unit u).slots = (p.store.unit u).slots := by
  have hidle : ∀ (t : Torn) (s : Store), tearOne t none s = s := fun t _ => by cases t <;> rfl
  have htorn : tearBanks torn p.store = { p.store with bank0 := [], bank1 := [] } := by
    rw [tearBanks, h0, h1, List.head?_nil, hidle, hidle]
  have hstore : (resetPart torn p).store = (tearBanks torn p.store).afterReset := rfl
  rw [hstore, htorn]
  refine ⟨rfl, fun u => ?_⟩
  rw [afterReset_unit]
  exact ⟨rfl, rfl, rfl⟩

/-- The registers read as R139 gives them after RESET#. -/
theorem resetPart_window : readWindow (resetPart torn p) 0 32 =
    [0x01#8, 0x00#8, 0x60#8, 0x31#8] ++ List.replicate 12 0x00#8 ++ [0x00#8, 0x04#8, 0x0A#8, 0x00#8] ++
      List.replicate 8 0x00#8 ++ [0xFF#8, 0x03#8, 0xE0#8, 0x03#8] := by
  have hreset : readWindow (resetPart torn p) 0 32 = readWindow Part.reset 0 32 := rfl
  rw [hreset]
  decide

theorem resetPart_off : (resetPart torn p).on = false := Bool.and_false _

/-! ## Pulses and the supplies -/

theorem assertReset_pulse (ns : Nat) (taken : Bool) : assertReset (.pulse ns taken) torn p =
    if p.on = true ∧ (10000 ≤ ns ∨ (2000 ≤ ns ∧ taken = true)) then resetPart torn p else p := by
  simp only [assertReset, Bool.and_eq_true, Bool.or_eq_true, decide_eq_true_eq]
  rfl

theorem assertReset_filtered {ns : Nat} {taken : Bool} (h : ns < 2000 ∨ (ns < 10000 ∧ taken = false)) :
    assertReset (.pulse ns taken) torn p = p := by
  refine (assertReset_pulse torn ns taken).trans (if_neg fun ⟨_, htaken⟩ => ?_)
  rcases h with h | ⟨h, rfl⟩
  · omega
  · rcases htaken with htaken | ⟨-, htaken⟩
    · omega
    · cases htaken

/-- The part reset with its supplies at a level and RESET# low. -/
def resetWith (powered : Bool) (p : Part) : Part :=
  { resetPart torn p with pins := { p.pins with powered := powered, resetLow := true } }

theorem losePower_powered (h : p.pins.powered = true) : losePower torn p = resetWith torn false p := if_pos h

theorem assertReset_powerOn (h : p.pins.powered = false) : assertReset .powerOn torn p = resetWith torn true p := by
  simp [assertReset, h, resetWith, resetPart]

end

/-! ## The claims -/

/-- Settles O7: the state after RESET# is one concrete state, and each invariant is a closed fact about it. -/
theorem resetMeetsTheInvariants : Obligations.ResetMeetsTheInvariants := by
  refine ⟨⟨rfl, fun _ => rfl⟩, ?_, ?_, ⟨rfl, rfl⟩, ?_, ?_, ?_⟩
  · exact fun e he => absurd he List.not_mem_nil
  · exact List.nodup_nil
  · exact ⟨Nat.zero_le _, Nat.zero_le _⟩
  · exact ⟨by decide, Nat.le_refl 4, by decide⟩
  · exact ⟨rfl, rfl, rfl⟩

/-- Settles O15: a pulse is either taken, and then the part is reset, or filtered, and then nothing changes (R161). -/
theorem resetPulse : Obligations.ResetPulse := by
  intro s ns taken torn hon
  refine ⟨fun h => ⟨_, apply_of_eq ((assertReset_pulse torn ns taken).trans (if_pos ⟨hon, h⟩)), rfl, resetPart_off torn, rfl, rfl,
    rfl, rfl, rfl, fun x hx => List.eq_of_mem_replicate hx, rfl, rfl, rfl, rfl, ?_, ?_, ?_, afterReset_volatiles _,
    resetPart_fuses torn, rfl, resetPart_window torn, resetPart_flash_stays torn⟩,
    fun h => apply_of_eq (assertReset_filtered torn h)⟩
  · simp [Part.alertAsserted, resetPart_off]
  · simp [Part.noteAsserted, resetPart_off]
  · simp [Part.conformLevel, resetPart_off]

/-- Settles O16: the loss and the return are each a reset of the part, the supplies down and up (R161, R162). -/
theorem powerLossAndReturn : Obligations.PowerLossAndReturn := by
  intro s torn torn' hpowered
  obtain ⟨hflash, -⟩ := resetPart_flash_stays torn' (p := resetWith torn false s.part) rfl rfl
  exact ⟨{ s with part := resetWith torn false s.part }, _, apply_of_eq (losePower_powered torn hpowered), rfl, rfl, rfl, rfl, rfl,
    rfl, rfl, rfl, rfl, fun x hx => List.eq_of_mem_replicate hx, rfl, rfl, rfl, afterReset_volatiles _, resetPart_fuses torn,
    resetPart_flash_stays torn, rfl, rfl, apply_of_eq (assertReset_powerOn torn' rfl), rfl, rfl, rfl, rfl, rfl, rfl, rfl, rfl,
    afterReset_volatiles _, hflash, rfl⟩

end Sys2Proof.Machine
end

section
/-! The Attention Unit's registers and lines, the key switch, and bus mastering (R154, R156 to R160). -/
namespace Sys2Proof.Machine

/-! ## Causes and the attention lines -/

theorem mask_getLsbD (c d : Cause) : c.mask.getLsbD d.bit = decide (d = c) := by cases c <;> cases d <;> rfl

/-- Raising one cause leaves every other as it was (R156). -/
theorem isPending_raise_other (p : Part) {c d : Cause} (h : d ≠ c) : (p.raise c).isPending d = p.isPending d := by
  simp [Part.isPending, Part.raise, mask_getLsbD, h]

theorem bne_zero_iff_getLsbD {n : Nat} (x : BitVec n) : (x != 0#n) = true ↔ ∃ i < n, x.getLsbD i = true := by
  rw [bne_iff_ne, ne_eq, BitVec.eq_of_getLsbD_eq_iff]
  simp

section
variable {p : Part}

/-- ALERT# follows the causes pending, enabled and routed URGENT (R159). -/
theorem alertAsserted_iff (hon : p.on = true) : p.alertAsserted = true ↔
    ∃ i < 10, p.att.pending.getLsbD i = true ∧ p.att.enable.getLsbD i = true ∧ p.att.route.getLsbD i = true := by
  rw [Part.alertAsserted, hon, Bool.true_and, Attention.alert, bne_zero_iff_getLsbD]
  simp only [BitVec.getLsbD_and, Bool.and_eq_true, and_assoc]

/-- NOTE# follows the causes pending, enabled and routed ROUTINE (R159). -/
theorem noteAsserted_iff (hon : p.on = true) : p.noteAsserted = true ↔
    ∃ i < 10, p.att.pending.getLsbD i = true ∧ p.att.enable.getLsbD i = true ∧ p.att.route.getLsbD i = false := by
  rw [Part.noteAsserted, hon, Bool.true_and, Attention.note, bne_zero_iff_getLsbD]
  refine exists_congr fun i => and_congr_right fun hi => ?_
  simp [hi, and_assoc]

end

/-! ## The writes of CAUSE and CAUSECFG -/

section
variable (p : Part) (v : Reg)

theorem writeCause_pending {i : Nat} (hi : i < 10) :
    (writeCause p v).att.pending.getLsbD i = (p.att.pending.getLsbD i && !v.getLsbD i) := by
  simp [writeCause, hi]

theorem writeCausecfg_enable {i : Nat} (hi : i < 10) : (writeCausecfg p v).att.enable.getLsbD i = v.getLsbD i := by
  simp [writeCausecfg, hi]

theorem writeCausecfg_route {i : Nat} (hi : i < 10) : (writeCausecfg p v).att.route.getLsbD i = v.getLsbD (16 + i) := by
  simp [writeCausecfg, hi]

theorem readRegister_cause (i : Nat) : (readRegister p .cause).getLsbD i = p.att.pending.getLsbD i := by
  by_cases hi : i < 32
  · simp [readRegister, hi]
  · rw [BitVec.getLsbD_of_ge _ _ (by omega), BitVec.getLsbD_of_ge _ _ (by omega)]

/-- The enables read in bits 9 to 0 and the routes in bits 25 to 16; the other bits of CAUSECFG read as 0 (R157, R165). -/
theorem readRegister_causecfg_written (i : Nat) : (readRegister (writeCausecfg p v) .causecfg).getLsbD i =
    ((decide (i < 10) || decide (16 ≤ i ∧ i < 26)) && v.getLsbD i) := by
  by_cases hlow : i < 16
  · have hword : i < 32 := by omega
    have hnot : ¬ 16 ≤ i := by omega
    simp [readRegister, writeCausecfg, hlow, hword, hnot]
  · have hplace : 16 + (i - 16) = i := by omega
    have hnot : ¬ i < 10 := by omega
    by_cases hhigh : i < 26
    · have hword : i < 32 ∧ i - 16 < 32 ∧ i - 16 < 10 ∧ 16 ≤ i := by omega
      simp [readRegister, writeCausecfg, hnot, hlow, hplace, hword, hhigh]
    · have hroute : ¬ i - 16 < 10 := by omega
      simp [readRegister, writeCausecfg, hnot, hroute, hhigh]

end

/-- Settles O26: a write to CAUSE is read bit by bit, and the lines from the bits left (R158, R159). -/
theorem causeWriteClears : Obligations.CauseWriteClears := by
  intro s v hon
  have hlines {i : Nat} {e : Bool} (hi : i < 10) :
      ((writeCause s.part v).att.pending.getLsbD i = true ∧ s.part.att.enable.getLsbD i = true ∧ s.part.att.route.getLsbD i = e) ↔
      (s.part.att.pending.getLsbD i = true ∧ v.getLsbD i = false ∧ s.part.att.enable.getLsbD i = true ∧
        s.part.att.route.getLsbD i = e) := by
    rw [writeCause_pending _ _ hi, Bool.and_eq_true, Bool.not_eq_true', and_assoc]
  exact ⟨readRegister_cause s.part, _, apply_of_eq (if_pos hon), rfl, fun i hi => writeCause_pending s.part v hi,
    (alertAsserted_iff (p := writeCause s.part v) hon).trans (exists_congr fun i => and_congr_right hlines),
    (noteAsserted_iff (p := writeCause s.part v) hon).trans (exists_congr fun i => and_congr_right hlines)⟩

/-- Settles O27: a write to CAUSECFG is read bit by bit, and the lines from the enables and routes written (R157, R159). -/
theorem causecfgWriteReplaces : Obligations.CausecfgWriteReplaces := by
  refine ⟨by decide, fun s v hon => ⟨?_, fun width hwidth => ?_⟩⟩
  · have hlines {i : Nat} {e : Bool} (hi : i < 10) : (s.part.att.pending.getLsbD i = true ∧
        (writeCausecfg s.part v).att.enable.getLsbD i = true ∧ (writeCausecfg s.part v).att.route.getLsbD i = e) ↔
        (s.part.att.pending.getLsbD i = true ∧ v.getLsbD i = true ∧ v.getLsbD (16 + i) = e) := by
      rw [writeCausecfg_enable _ _ hi, writeCausecfg_route _ _ hi]
    exact ⟨_, apply_of_eq (if_pos hon), rfl, fun i hi => ⟨writeCausecfg_enable s.part v hi, writeCausecfg_route s.part v hi⟩,
      readRegister_causecfg_written s.part v,
      (alertAsserted_iff (p := writeCausecfg s.part v) hon).trans (exists_congr fun i => and_congr_right hlines),
      (noteAsserted_iff (p := writeCausecfg s.part v) hon).trans (exists_congr fun i => and_congr_right hlines)⟩
  · have hnarrow : ¬ (s.part.on && width == 4) = true := by simp; omega
    exact apply_of_eq (if_neg hnarrow)

/-! ## The key switch -/

theorem changeKeysw_changes {p : Part} {level : Bool} (hon : p.on = true) (h : level ≠ p.pins.keysw) : changeKeysw level p =
    { p with pins := { p.pins with keysw := level }, key := { p.key with running := true } } :=
  (if_neg (Ne.symm h)).trans (if_pos hon)

theorem debounceExpires_running {p : Part} (hon : p.on = true) (h : p.key.running = true) : debounceExpires p =
    if p.pins.keysw = p.key.level then { p with key := { level := p.pins.keysw, running := false } }
    else handOver (Part.raise { p with key := { level := p.pins.keysw, running := false } } .key) :=
  if_pos (Bool.and_eq_true _ _ ▸ ⟨hon, h⟩)

/-- Settles O33: the input's change starts the timer, and its expiry takes the level and raises KEY only on a change (R160). -/
theorem keySwitchDebounce : Obligations.KeySwitchDebounce := by
  intro s level hon
  refine ⟨fun hchange => apply_of_eq (changeKeysw_changes hon hchange), fun hrunning => ?_⟩
  refine ⟨_, apply_of_eq (debounceExpires_running hon hrunning), ?_⟩
  by_cases hsame : s.part.pins.keysw = s.part.key.level
  · rw [if_pos hsame, if_pos hsame]
    exact ⟨rfl, rfl, rfl, rfl, rfl, rfl, rfl, rfl⟩
  · rw [if_neg hsame, if_neg hsame]
    exact ⟨rfl, rfl, rfl, rfl, rfl, rfl, rfl, rfl⟩

/-! ## Bus mastering -/

/-- With bus mastering off the first transfer of a step fails, none of its bytes reaching memory, and halts the port (R154). -/
theorem write_masteringOff {p : Part} {pieces : List (Nat × List Byte)} (hoff : p.pins.mastering = false) (h : pieces ≠ []) :
    (Bus.start p []).write pieces = { Bus.start (exchangeFault p) [] with up := false } := by
  have hwent : (pieces.all fun x => (Bus.start p []).goes x.1 x.2.length) = false := by
    obtain ⟨x, rest, rfl⟩ := List.exists_cons_of_ne_nil h
    simp [Bus.goes, Bus.start, hoff]
  have hwrite : ∀ went, (pieces.all fun x => (Bus.start p []).goes x.1 x.2.length) = went → (Bus.start p []).write pieces =
      (if (went || false) = true then { Bus.start p [] with part := pieces.foldl (fun q x => q.hostWrite x.1 x.2) p }
        else Bus.start p []).over none went := fun went hw => hw ▸ rfl
  exact hwrite false hwent

/-- So a status update that is due halts the port and writes nothing (R151, R154). -/
theorem writeStatus_masteringOff {p : Part} (hon : p.on = true) (hlive : p.port.live = true) (hchanged : p.port.changed ≠ [])
    (hoff : p.pins.mastering = false) : writeStatus p [] = exchangeFault p := by
  have hdue : (Bus.start p []).flushStatus = (Bus.start p []).writeItems p.port.changed :=
    if_pos (by simp [Bus.start, hlive, hchanged])
  rw [writeStatus, if_pos hon, hdue, Bus.writeItems]
  dsimp only
  rw [write_masteringOff hoff (by simpa using hchanged)]
  rfl

/-- Settles O18: the update's first transfer finds bus mastering off, fails, and halts the port (R154, R161). -/
theorem busMasteringOffHaltsTheNextTransfer : Obligations.BusMasteringOffHaltsTheNextTransfer := by
  intro s on
  refine ⟨rfl, rfl, fun hon hlive hchanged hoff => ?_⟩
  exact ⟨_, apply_of_eq (writeStatus_masteringOff hon hlive hchanged hoff), rfl, rfl, rfl, Part.raise_isPending _ .exchangeFault,
    rfl, rfl, rfl, rfl⟩

end Sys2Proof.Machine
end

section
/-! Which snapshot mount chooses, and what replay makes of a commit group and of a run without a gap (R129, R133, R134). -/
namespace Sys2Proof.Machine

/-! ## The choice of a snapshot -/

/-- One slot of the search for a snapshot: a complete one that begins above the best so far takes its place. -/
def betterSnapshot (vs : List ValidSlot) (best : Option (Nat × Nat)) (v : ValidSlot) : Option (Nat × Nat) :=
  match v.record with
  | .snapBegin r => if completeAt vs v.seq && best.all fun b => decide (b.1 < v.seq) then some (v.seq, r) else best
  | _ => best

theorem chooseSnapshot_eq (vs : List ValidSlot) : chooseSnapshot vs = vs.foldl (betterSnapshot vs) none := rfl

/-- The best snapshot of the slots seen: it is complete, begins in one of them, and no complete one of them begins above it. -/
structure BestOf (vs seen : List ValidSlot) (best : Option (Nat × Nat)) : Prop where
  begun    : ∀ b R, best = some (b, R) → completeAt vs b = true ∧ ∃ v ∈ seen, v.seq = b ∧ v.record = .snapBegin R
  greatest : ∀ v ∈ seen, ∀ k, v.record = .snapBegin k → completeAt vs v.seq = true → ∃ b R, best = some (b, R) ∧ v.seq ≤ b

section
variable {vs seen : List ValidSlot} {best : Option (Nat × Nat)} {v : ValidSlot}

/-- What a slot can do to the search: it begins a complete snapshot above the best so far, or the best stands. -/
theorem betterSnapshot_cases (vs : List ValidSlot) (best : Option (Nat × Nat)) (v : ValidSlot) :
    (∃ r, v.record = .snapBegin r ∧ completeAt vs v.seq = true ∧ (∀ b R, best = some (b, R) → b < v.seq) ∧
      betterSnapshot vs best v = some (v.seq, r)) ∨
    (betterSnapshot vs best v = best ∧
      ∀ k, v.record = .snapBegin k → completeAt vs v.seq = true → ∃ b R, best = some (b, R) ∧ v.seq ≤ b) := by
  unfold betterSnapshot
  split
  case h_1 r hr =>
    split
    case isTrue hbetter =>
      obtain ⟨hcomplete, habove⟩ := Bool.and_eq_true _ _ ▸ hbetter
      refine .inl ⟨r, hr, hcomplete, fun b R hb => ?_, rfl⟩
      simpa [hb] using habove
    case isFalse hworse =>
      refine .inr ⟨rfl, fun k _ hcomplete => ?_⟩
      rw [hcomplete, Bool.true_and] at hworse
      cases best with
      | none => exact absurd rfl hworse
      | some b => exact ⟨b.1, b.2, rfl, by simpa using hworse⟩
  case h_2 hno => exact .inr ⟨rfl, fun k hk => absurd hk (hno k)⟩

theorem BestOf.step (h : BestOf vs seen best) (v : ValidSlot) : BestOf vs (seen ++ [v]) (betterSnapshot vs best v) := by
  rcases betterSnapshot_cases vs best v with ⟨r, hr, hcomplete, habove, heq⟩ | ⟨heq, hnone⟩ <;> rw [heq]
  · refine ⟨fun b R hb => ?_, fun w hw k hk hc => ⟨v.seq, r, rfl, ?_⟩⟩
    · cases hb
      exact ⟨hcomplete, v, by simp, rfl, hr⟩
    · rcases List.mem_append.1 hw with hw | hw
      · obtain ⟨b, R, hb, hle⟩ := h.greatest w hw k hk hc
        exact Nat.le_trans hle (Nat.le_of_lt (habove b R hb))
      · exact Nat.le_of_eq (congrArg ValidSlot.seq (List.mem_singleton.1 hw))
  · refine ⟨fun b R hb => ?_, fun w hw k hk hc => ?_⟩
    · obtain ⟨hcomplete, w, hw, hseq⟩ := h.begun b R hb
      exact ⟨hcomplete, w, List.mem_append_left _ hw, hseq⟩
    · rcases List.mem_append.1 hw with hw | hw
      · exact h.greatest w hw k hk hc
      · rw [List.mem_singleton.1 hw] at hk hc ⊢
        exact hnone k hk hc

theorem BestOf.foldl (h : BestOf vs seen best) (rest : List ValidSlot) :
    BestOf vs (seen ++ rest) (rest.foldl (betterSnapshot vs) best) := by
  induction rest generalizing seen best with
  | nil => simpa using h
  | cons v rest ih => simpa using ih (h.step v)

/-- The snapshot chosen is the best of all slots (R133). -/
theorem chooseSnapshot_best (vs : List ValidSlot) : BestOf vs vs (chooseSnapshot vs) := by
  have hstart : BestOf vs [] none := { begun := nofun, greatest := fun _ hv => absurd hv List.not_mem_nil }
  exact hstart.foldl vs

end

theorem frames_false {r : JournalRecord} (h : r.frames = false) : (∀ k, r ≠ .snapBegin k) ∧ ∀ k, r ≠ .snapEnd k := by
  constructor <;> rintro k rfl <;> cases h

/-- A complete snapshot ends in a SNAP_END, and no frame stands between (R133). -/
theorem completeAt_ends {vs : List ValidSlot} {s : Nat} (h : completeAt vs s = true) :
    ∃ v ∈ vs, ∃ c, v.record = .snapEnd c ∧ v.seq = s + c + 1 ∧
      ∀ i < c, ∃ r, recordAt vs (s + 1 + i) = some r ∧ (∀ k, r ≠ .snapBegin k) ∧ ∀ k, r ≠ .snapEnd k := by
  obtain ⟨v, hv, hends⟩ := List.any_eq_true.1 h
  refine ⟨v, hv, ?_⟩
  split at hends
  case h_1 c hc =>
    obtain ⟨hseq, hbetween⟩ := Bool.and_eq_true _ _ ▸ hends
    refine ⟨c, hc, of_decide_eq_true hseq, fun i hi => ?_⟩
    obtain ⟨r, hr, hframe⟩ := (Option.any_eq_true ..).1 (List.all_eq_true.1 hbetween i (List.mem_range.2 hi))
    exact ⟨r, hr, frames_false (by simpa using hframe)⟩
  case h_2 => cases hends

/-- The snapshot chosen is complete, and no complete one begins above it (R133). -/
theorem chooseSnapshot_some {vs : List ValidSlot} {b R : Nat} (h : chooseSnapshot vs = some (b, R)) :
    (∃ v ∈ vs, v.seq = b ∧ v.record = .snapBegin R) ∧
    (∃ v ∈ vs, ∃ c, v.record = .snapEnd c ∧ v.seq = b + c + 1 ∧
      ∀ i < c, ∃ r, recordAt vs (b + 1 + i) = some r ∧ (∀ k, r ≠ .snapBegin k) ∧ ∀ k, r ≠ .snapEnd k) ∧
    ∀ v ∈ vs, ∀ k, v.record = .snapBegin k → completeAt vs v.seq = true → v.seq ≤ b := by
  obtain ⟨hcomplete, hbegun⟩ := (chooseSnapshot_best vs).begun b R h
  refine ⟨hbegun, completeAt_ends hcomplete, fun v hv k hk hc => ?_⟩
  obtain ⟨b', R', hb, hle⟩ := (chooseSnapshot_best vs).greatest v hv k hk hc
  cases h.symm.trans hb
  exact hle

/-- None is chosen where none is complete (R133, R136). -/
theorem chooseSnapshot_none {vs : List ValidSlot} (h : chooseSnapshot vs = none) :
    ∀ v ∈ vs, ∀ k, v.record = .snapBegin k → completeAt vs v.seq = false := by
  intro v hv k hk
  refine Bool.eq_false_iff.2 fun hc => ?_
  obtain ⟨b, R, hb, -⟩ := (chooseSnapshot_best vs).greatest v hv k hk hc
  cases h.symm.trans hb

/-! ## Replay -/

section
variable {x : Replay} {f n : Nat}

theorem meet_ungrouped (h : x.group = none) (r : JournalRecord) : x.meet r = x.apply r := by
  simp [Replay.meet, h]

/-- The entries of a commit group are held aside (R129). -/
theorem meet_group_entries (es : List EntryImage) {held : List EntryImage} (hlen : held.length + es.length ≤ n)
    (hf : ∀ e ∈ es, e.key.format = f) :
    (es.map (JournalRecord.entry .change)).foldl Replay.meet { x with group := some (f, n, held) } =
      { x with group := some (f, n, held ++ es) } := by
  induction es generalizing held with
  | nil => simp
  | cons e es ih =>
    have hroom : held.length < n ∧ e.key.format = f :=
      ⟨by simp at hlen; omega, hf e List.mem_cons_self⟩
    have hheld : Replay.meet { x with group := some (f, n, held) } (.entry .change e) =
        { x with group := some (f, n, held ++ [e]) } := if_pos hroom
    rw [List.map_cons, List.foldl_cons, hheld, ih (by simp at hlen ⊢; omega) fun e he => hf e (List.mem_cons_of_mem _ he)]
    simp

/-- A commit group met whole: its entries wait for its COMMIT_END (R129). -/
theorem meet_group (hx : x.group = none) {es : List EntryImage} (hf : ∀ e ∈ es, e.key.format = f) :
    (JournalRecord.commitBegin f es.length :: es.map (.entry .change)).foldl Replay.meet x =
      { x with group := some (f, es.length, es) } := by
  rw [List.foldl_cons, meet_ungrouped hx]
  exact meet_group_entries (held := []) es (by simp) hf

/-- With its COMMIT_END a commit group changes all its entries; met by another record before it, the group is dropped (R129). -/
theorem meet_commitGroup {es : List EntryImage} {group : List JournalRecord} (hx : x.group = none) (hf : ∀ e ∈ es, e.key.format = f)
    (hgroup : group = .commitBegin f es.length :: es.map (.entry .change)) :
    (group ++ [JournalRecord.commitEnd]).foldl Replay.meet x = es.foldl Replay.putEntry x ∧
    (group.foldl Replay.meet x).entries = x.entries ∧
    ∀ ps, (group ++ [JournalRecord.param ps]).foldl Replay.meet x = x.apply (.param ps) := by
  have hheld : group.foldl Replay.meet x = { x with group := some (f, es.length, es) } := hgroup ▸ meet_group hx hf
  have hopen : { x with group := none } = x := by rw [← hx]
  refine ⟨?_, (congrArg Replay.entries hheld :), fun ps => ?_⟩
  · rw [List.foldl_append, hheld]
    exact (if_pos rfl).trans (congrArg (es.foldl Replay.putEntry) hopen)
  · rw [List.foldl_append, hheld]
    exact congrArg (Replay.apply · (.param ps)) hopen

end

/-- A run of numbers that are all carried is replayed to its end, and no gap is met (R134). -/
theorem replayFrom_carried {vs : List ValidSlot} {h : Nat} (fuel n : Nat) (x : Replay) (hfuel : h + 1 - n ≤ fuel)
    (hcarried : ∀ m, n ≤ m → m ≤ h → recordAt vs m ≠ none) : replayFrom vs h fuel n x =
      (((List.range (h + 1 - n)).filterMap fun i => recordAt vs (n + i)).foldl Replay.meet x, false) := by
  induction fuel generalizing n x with
  | zero => simp [replayFrom, Nat.le_zero.1 hfuel]
  | succ fuel ih =>
    unfold replayFrom
    by_cases hn : n ≤ h
    · obtain ⟨r, hr⟩ := Option.ne_none_iff_exists'.1 (hcarried n (Nat.le_refl n) hn)
      have hlen : h + 1 - n = h + 1 - (n + 1) + 1 := by omega
      have hshift : ((fun i => recordAt vs (n + i)) ∘ Nat.succ) = fun i => recordAt vs (n + 1 + i) :=
        funext fun i => congrArg (recordAt vs) (by omega)
      rw [if_pos hn, hr]
      dsimp only
      rw [ih (n + 1) _ (by omega) fun m hm => hcarried m (by omega), hlen, List.range_succ_eq_map,
        List.filterMap_cons_some (f := fun i => recordAt vs (n + i)) (a := 0) hr, List.filterMap_map, hshift, List.foldl_cons]
    · have hover : h + 1 - n = 0 := by omega
      rw [if_neg hn, hover]
      rfl

theorem recordAt_carried {vs : List ValidSlot} {n : Nat} (h : recordAt vs n ≠ none) : n ∈ vs.map ValidSlot.seq := by
  obtain ⟨r, hr⟩ := Option.ne_none_iff_exists'.1 h
  obtain ⟨v, hv, -⟩ := Option.map_eq_some_iff.1 hr
  exact List.mem_map.2 ⟨v, List.mem_of_find?_eq_some hv, of_decide_eq_true (List.find?_some hv :)⟩

/-- So many numbers carried, so many slots at least. -/
theorem carried_length {vs : List ValidSlot} {b h : Nat} (hcarried : ∀ m, b ≤ m → m ≤ h → recordAt vs m ≠ none) :
    h + 1 - b ≤ vs.length := by
  have hsub : List.range' b (h + 1 - b) ⊆ vs.map ValidSlot.seq := fun m hm => by
    obtain ⟨hlo, hhi⟩ := List.mem_range'_1.1 hm
    exact recordAt_carried (hcarried m hlo (by omega))
  have hlen := List.Nodup.length_le_of_subset (List.nodup_range' (step := 1)) hsub
  rwa [List.length_range', List.length_map] at hlen

end Sys2Proof.Machine
end

section
/-! What mount's reads find in the store, and what it rebuilds from the journal (R107, R126, R132 to R135). -/
namespace Sys2Proof.Machine

/-- What a function of the accumulator does not see, a fold leaves as it is. -/
theorem foldl_field {α β γ : Type} (g : β → γ) {f : β → α → β} (hf : ∀ b a, g (f b a) = g b) (as : List α) (b : β) :
    g (as.foldl f b) = g b := by
  induction as generalizing b with
  | nil => rfl
  | cons a as ih => exact (ih (f b a)).trans (hf b a)

/-! ## A store without its weak flags -/

/-- A unit with its weak flag clear. -/
def EraseUnit.unweak (x : EraseUnit) : EraseUnit := { x with weak := false }

/-- A store with every weak flag clear: the reads of mount change nothing else (R107). -/
def Store.unweak (s : Store) : Store := { s with units := s.units.map EraseUnit.unweak }

theorem unweak_unit (s : Store) (u : Nat) : s.unweak.unit u = (s.unit u).unweak := by
  have hmap : s.unweak.unit u = (s.units.map EraseUnit.unweak).getD u EraseUnit.blank.unweak := rfl
  rw [hmap, List.getD_eq_getElem?_getD, List.getElem?_map, Option.getD_map, Store.unit, List.getD_eq_getElem?_getD]

theorem map_modifyNth {α β : Type} {g : α → β} {f : α → α} {f' : β → β} (h : ∀ x, g (f x) = f' (g x)) (n : Nat) (xs : List α) :
    (modifyNth f n xs).map g = modifyNth f' n (xs.map g) := by
  induction xs generalizing n with
  | nil => cases n <;> rfl
  | cons x xs ih => cases n <;> simp [modifyNth, h, ih]

theorem modifyNth_id {α : Type} (n : Nat) (xs : List α) : modifyNth id n xs = xs := by
  induction xs generalizing n with
  | nil => cases n <;> rfl
  | cons x xs ih => cases n <;> simp [modifyNth, ih]

theorem modify_unweak {f f' : EraseUnit → EraseUnit} (h : ∀ x, (f x).unweak = f' x.unweak) (s : Store) (u : Nat) :
    (s.modify u f).unweak = s.unweak.modify u f' :=
  congrArg (fun units => { s with units := units }) (map_modifyNth h u s.units)

theorem noteRead_unweak (s : Store) (u errors : Nat) : (s.noteRead u errors).unweak = s.unweak := by
  unfold Store.noteRead
  split
  · rw [modify_unweak (f := fun x => { x with weak := true }) (f' := id) fun _ => rfl, Store.modify, modifyNth_id]
  · rfl

theorem noteMountReads_unweak (env : MountEnv) (s : Store) : (noteMountReads env s).unweak = s.unweak :=
  foldl_field Store.unweak (fun t r => by
    split
    · exact noteRead_unweak ..
    · rfl) env.reads s

theorem addLive_unweak (s : Store) (u n : Nat) : (s.addLive u n).unweak = s.unweak.addLive u n :=
  modify_unweak (f := fun x => { x with live := x.live + n }) (f' := fun x => { x with live := x.live + n }) (fun _ => rfl) s u

theorem markListed_unweak (bad : List Nat) (s : Store) : (markListed bad s).unweak = markListed bad s.unweak := by
  have hunits : (markListed bad s).unweak.units = (markListed bad s.unweak).units :=
    List.ext_getElem (by simp [Store.unweak, markListed]) fun i _ _ => by simp [Store.unweak, markListed, EraseUnit.unweak]
  exact congrArg (fun units => { s with units := units }) hunits

/-! ## What does not see the weak flags -/

section
variable (env : MountEnv) (s : Store)

theorem validSlots_unweak (u : Nat) : validSlots env s.unweak u = validSlots env s u := by
  have herrors : ∀ page, mountErrors env s.unweak u page = mountErrors env s u page := fun page => by
    simp [mountErrors, Store.pageErrors, Store.readsErased, unweak_unit, EraseUnit.unweak]
  have hdata : ∀ m, s.unweak.slotData u m = s.slotData u m := fun _ => rfl
  simp only [validSlots, unweak_unit, EraseUnit.unweak, herrors, hdata]

theorem allValid_unweak : allValid env s.unweak = allValid env s :=
  congrArg (fun f => (List.range Config.maxRecordUnits).flatMap f) (funext (validSlots_unweak env s))

theorem isOldRecordUnit_unweak (vs : List ValidSlot) (begin h u : Nat) :
    isOldRecordUnit vs begin h s.unweak u = isOldRecordUnit vs begin h s u := by
  simp only [isOldRecordUnit, unweak_unit, EraseUnit.unweak]

theorem dirtyUnits_unweak : dirtyUnits s.unweak = dirtyUnits s := by
  have himage : ∀ u, s.unweak.isImage u = s.isImage u := fun _ => rfl
  simp only [dirtyUnits, unweak_unit, EraseUnit.unweak, himage]

end

/-! ## The rule sets read -/

section
variable {env : MountEnv} {s t : Store}

/-- A rule set is made of the flash alone, and of which pages are programmed (R38). -/
theorem mountedSet_congr (hflash : t.flash = s.flash) (hpages : ∀ u, (t.unit u).pages = (s.unit u).pages) :
    mountedSet env t = mountedSet env s := by
  have hbytes : ∀ x, imageBytes t x = imageBytes s x := fun x => by simp only [imageBytes, Store.pageData, hflash]
  have herrors : ∀ u page errors, t.pageErrors u page errors = s.pageErrors u page errors := fun u page errors => by
    rw [Store.pageErrors, Store.readsErased, hpages]
    rfl
  have hwhole : ∀ x, imageWhole env t x = imageWhole env s x := fun x => by simp only [imageWhole, mountErrors, herrors, hbytes]
  funext o
  cases o with
  | none => rfl
  | some img => simp only [mountedSet, hbytes, hwhole]

theorem mountedSet_image (o : Option SetImage) : (mountedSet env s o).image = o := by
  cases o with
  | none => rfl
  | some img => exact (apply_ite RuleSet.image ..).trans (ite_self _)

end

/-! ## The part rebuilt -/

section
variable {env : MountEnv} {R : Nat} {x : Replay} {p q : Part}

/-- The store as the rebuilding finds it: the bad-unit list and R known, the reads of the rule sets noted (R135). -/
def readSets (env : MountEnv) (R : Nat) (x : Replay) (s : Store) : Store :=
  (x.sets.filterMap id).foldl (fun s img => noteImageReads env s img.span) (markListed x.bad { s with recordSize := some R })

/-- The pages of each image of a list counted live (R135, step 2). -/
def liveCounted (is : List (ImageRef × ImageSpan)) (s : Store) : Store :=
  is.foldl (fun s i => s.addLive i.2.run.unit i.2.run.pages) s

theorem rebuild_store (env : MountEnv) (R : Nat) (x : Replay) (p : Part) :
    (rebuild env R x p).store = liveCounted (images (rebuild env R x p)) (readSets env R x p.store) := by
  unfold rebuild countLive
  dsimp only
  split <;> rfl

theorem readSets_field {γ : Type} (g : Store → γ) (hread : ∀ s u e, g (s.noteRead u e) = g s) (env : MountEnv) (R : Nat) (x : Replay)
    (s : Store) : g (readSets env R x s) = g (markListed x.bad { s with recordSize := some R }) :=
  foldl_field g (fun s (img : SetImage) => foldl_field g (fun s _ => hread s _ _) img.span.run.all s) _ _

/-- What sees neither weak flags nor live pages sees the store of before with the bad-unit list and R known. -/
theorem rebuild_store_field {γ : Type} (g : Store → γ) (hread : ∀ s u e, g (s.noteRead u e) = g s)
    (hlive : ∀ s u n, g (s.addLive u n) = g s) (env : MountEnv) (R : Nat) (x : Replay) (p : Part) :
    g (rebuild env R x p).store = g (markListed x.bad { p.store with recordSize := some R }) := by
  rw [rebuild_store]
  exact (foldl_field g (fun s i => hlive s _ _) _ _).trans (readSets_field g hread env R x p.store)

theorem rebuild_recordSize : (rebuild env R x p).store.recordSize = some R :=
  rebuild_store_field Store.recordSize (fun s u e => by unfold Store.noteRead; split <;> rfl) (fun _ _ _ => rfl) env R x p

theorem rebuild_queue (b : Bank) : (rebuild env R x p).store.queue b = p.store.queue b :=
  (rebuild_store_field (Store.queue · b) (fun s u e => noteRead_queue s u e b) (fun s u n => modify_queue s u _ b) env R x p).trans
    (by cases b <;> rfl)

theorem noteRead_unit_field {γ : Type} (g : EraseUnit → γ) (hg : ∀ x : EraseUnit, g { x with weak := true } = g x) (s : Store)
    (u errors v : Nat) : g ((s.noteRead u errors).unit v) = g (s.unit v) := by
  unfold Store.noteRead
  split
  · exact modify_unit_field g hg s u v
  · rfl

theorem addLive_unit_field {γ : Type} (g : EraseUnit → γ) (hg : ∀ (x : EraseUnit) n, g { x with live := n } = g x) (s : Store)
    (u n v : Nat) : g ((s.addLive u n).unit v) = g (s.unit v) := modify_unit_field g (fun x => hg x (x.live + n)) s u v

theorem markListed_unit {bad : List Nat} {s : Store} {u : Nat} (h : u < s.units.length) :
    (markListed bad s).unit u = { s.unit u with bad := decide (u ∈ bad) } := by
  simp [markListed, Store.unit, List.getD_eq_getElem?_getD, List.getElem?_mapIdx, List.getElem?_eq_getElem h]

theorem markListed_pages (bad : List Nat) (s : Store) (u : Nat) : ((markListed bad s).unit u).pages = (s.unit u).pages := by
  by_cases h : u < s.units.length
  · rw [markListed_unit h]
  · simp [markListed, Store.unit, h]

theorem rebuild_bad {u : Nat} (h : u < p.store.units.length) : ((rebuild env R x p).store.unit u).bad = decide (u ∈ x.bad) :=
  (rebuild_store_field (fun s => (s.unit u).bad) (fun s v e => noteRead_unit_field EraseUnit.bad (fun _ => rfl) s v e u)
    (fun s v n => addLive_unit_field EraseUnit.bad (fun _ _ => rfl) s v n u) env R x p).trans
    (congrArg EraseUnit.bad (markListed_unit h))

theorem rebuild_rules (env : MountEnv) (R : Nat) (x : Replay) (p : Part) :
    (rebuild env R x p).rules = x.sets.map (mountedSet env p.store) := by
  have hpages : ∀ u, ((readSets env R x p.store).unit u).pages = (p.store.unit u).pages := fun u =>
    (readSets_field (fun s => (s.unit u).pages) (fun s v e => noteRead_unit_field EraseUnit.pages (fun _ => rfl) s v e u) env R x
      p.store).trans (markListed_pages ..)
  have hflash : (readSets env R x p.store).flash = p.store.flash :=
    readSets_field Store.flash (fun s u e => s.noteRead_flash u e) env R x p.store
  rw [← mountedSet_congr hflash hpages]
  unfold rebuild countLive
  dsimp only
  split <;> rfl

/-- What the rebuilding leaves of the part, and what it puts into the Catalogue Unit and the line (R4, R86, R102, R126). -/
theorem rebuild_frame (env : MountEnv) (R : Nat) (x : Replay) (p : Part) :
    (rebuild env R x p).pins = p.pins ∧ (rebuild env R x p).device = p.device ∧ (rebuild env R x p).gap = p.gap ∧
    (rebuild env R x p).cat = { p.cat with entries := x.entries.mapIdx mountedEntry, nextUid := x.entries.length } ∧
    (rebuild env R x p).line = { p.line with params := x.params, active := x.format, stations := x.stations.map mountedStation } := by
  unfold rebuild countLive
  dsimp only
  split <;> exact ⟨rfl, rfl, rfl, rfl, rfl⟩

/-- The rebuilding raises no cause but STORE_FAULT (R38). -/
theorem rebuild_isPending {c : Cause} (hc : c ≠ .storeFault) : (rebuild env R x p).isPending c = p.isPending c := by
  unfold rebuild countLive
  dsimp only
  split
  · exact isPending_raise_other _ hc
  · rfl

theorem images_congr (hentries : p.cat.entries = q.cat.entries) (hrules : p.rules = q.rules) : images p = images q := by
  rw [images, images, hentries, hrules]

/-- Of a store read with other weak flags the same is rebuilt, but for these flags. -/
theorem rebuild_unweak (h : p.store.unweak = q.store.unweak) :
    (rebuild env R x p).store.unweak = (rebuild env R x q).store.unweak := by
  have hpages : ∀ u, (p.store.unit u).pages = (q.store.unit u).pages := fun u =>
    (congrArg EraseUnit.pages (unweak_unit p.store u)).symm.trans ((congrArg (fun s => (s.unit u).pages) h).trans
      (congrArg EraseUnit.pages (unweak_unit q.store u)))
  have hsets : mountedSet env p.store = mountedSet env q.store := mountedSet_congr (congrArg Store.flash h :) hpages
  obtain ⟨-, -, -, hp, -⟩ := rebuild_frame env R x p
  obtain ⟨-, -, -, hq, -⟩ := rebuild_frame env R x q
  have himages : images (rebuild env R x p) = images (rebuild env R x q) :=
    images_congr (by rw [hp, hq]) (by rw [rebuild_rules, rebuild_rules, hsets])
  have hcounted : ∀ is s, (liveCounted is s).unweak = liveCounted is s.unweak := fun is s =>
    (List.foldl_hom Store.unweak fun t i => (addLive_unweak t _ _).symm).symm
  have hread : ∀ s : Store, (readSets env R x s).unweak = markListed x.bad { s.unweak with recordSize := some R } := fun s =>
    (readSets_field Store.unweak noteRead_unweak env R x s).trans (markListed_unweak ..)
  rw [rebuild_store, rebuild_store, hcounted, hcounted, hread, hread, himages, h]

end

end Sys2Proof.Machine
end

section
/-! Mount from the release of RESET# to UNFORMATTED or READY (R4, R92, R126, R129, R132 to R136, R161). -/
namespace Sys2Proof.Machine

/-! ## The beginning of mount -/

section
variable {env : MountEnv} {p : Part}

/-- RESET# is high: the seconds are at 0 and the stability timer runs (R161). -/
def released (p : Part) : Part :=
  { p with pins := { p.pins with resetLow := false }, line := { p.line with seconds := 0 }, key := { p.key with running := true } }

/-- The part in MOUNTING once the record area is read, the next sequence number one above the highest found (R132). -/
def areaRead (env : MountEnv) (p : Part) : Part :=
  Part.withCat { p with device := .mounting, gap := false, store := noteMountReads env p.store }
    fun c => { c with nextSeq := highest (allValid env p.store) + 1 }

theorem allValid_noted (env : MountEnv) (s : Store) : allValid env (noteMountReads env s) = allValid env s := by
  rw [← allValid_unweak, noteMountReads_unweak, allValid_unweak]

/-- With no complete snapshot the part is UNFORMATTED (R136). -/
theorem mountBegin_unformatted (h : chooseSnapshot (allValid env p.store) = none) :
    mountBegin env p = { areaRead env p with device := .unformatted } := by
  unfold mountBegin
  dsimp only
  rw [Part.withCat_store, allValid_noted, h]
  rfl

/-- The part with what the journal states, the finishing steps before it (R135). -/
def rebuiltToFinish (env : MountEnv) (R : Nat) (x : Replay) (write : Option Nat) (appended : Bool) (p : Part) : Part :=
  (rebuild env R x (areaRead env p)).withCat fun c =>
    { c with work := .mount, writeUnit := write, appended := appended, todo := finishSteps [] false }

/-- A snapshot chosen, no gap in what follows it and no old record unit: the finishing steps are to come (R133 to R135). -/
theorem mountBegin_rebuilt {vs : List ValidSlot} {begin R : Nat} {x : Replay}
    (hchosen : chooseSnapshot (allValid env p.store) = some (begin, R))
    (hvs : vs = (allValid env p.store).filter fun v => decide (v.unit < R))
    (hreplay : replayFrom vs (highest (allValid env p.store)) (vs.length + 1) begin .start = (x, false))
    (hold : oldRecordUnits vs begin (highest (allValid env p.store)) R (rebuild env R x (areaRead env p)).store = []) :
    ∃ write appended, mountBegin env p = rebuiltToFinish env R x write appended p := by
  unfold mountBegin
  dsimp only
  rw [Part.withCat_store, allValid_noted, hchosen]
  dsimp only
  rw [← hvs, hreplay]
  exact ⟨_, _, congrArg (fun old => Part.withCat _ fun c =>
    { c with work := .mount, writeUnit := _, appended := _, todo := finishSteps old false }) hold⟩

end

/-! ## The finishing steps -/

section
variable {p : Part}

/-- The line state a mount ends in (R92). -/
def mountedState (active : Option Nat) : LineState := if active = none then .noFormat else .running

/-- The part as it becomes READY, its stations not yet judged (R92, R124, R135). -/
def becomeReady (p : Part) : Part :=
  Part.raise { p with
    store := setClasses p.store, device := .ready
    line := { p.line with state := if p.line.active.isSome then .running else .noFormat } } .lineState

theorem mountReady_eq (p : Part) : mountReady p = askScan (settleStations (becomeReady p)) := rfl

theorem judgeStations_images (p : Part) : (judgeStations p).map Station.image = p.line.stations.map Station.image := by
  obtain ⟨c, hline⟩ := (recompute_frame p).1
  simpa only [hline] using recompute_stationImages p

@[simp] theorem askScan_gap (p : Part) : (askScan p).gap = p.gap := by unfold askScan; split <;> rfl

/-- What the end of mount leaves of the part: every block but the port, the classes and the line, and of the line what is recorded. -/
theorem mountReady_frame (p : Part) : (mountReady p).pins = p.pins ∧ (mountReady p).device = .ready ∧ (mountReady p).gap = p.gap ∧
    (mountReady p).cat = p.cat ∧ (mountReady p).rules = p.rules ∧ (mountReady p).store = setClasses p.store ∧
    ∃ stations c, stations.map Station.image = p.line.stations.map Station.image ∧
      (mountReady p).line = { p.line with state := mountedState p.line.active, stations := stations, conform := c } := by
  obtain ⟨⟨c, hline⟩, hcat, hstore, -, hrules, -, hpins, -, hdevice, hgap⟩ := settleStations_frame (becomeReady p)
  rw [mountReady_eq, askScan_pins, askScan_device, askScan_gap, askScan_cat, askScan_rules, askScan_store, askScan_line]
  refine ⟨hpins, hdevice, hgap, hcat, hrules, hstore, judgeStations (becomeReady p), c, judgeStations_images _, hline.trans ?_⟩
  cases h : p.line.active <;> simp [becomeReady, mountedState, h]

/-- The judging of the stations at the end of mount raises no cause but CONFORM_LOST (log 38). -/
theorem settleStations_isPending {c : Cause} (hc : c ≠ .conformLost) : (settleStations p).isPending c = p.isPending c := by
  have hdrive : ∀ q : Part, (driveConform q).isPending c = q.isPending c := fun q => by
    unfold driveConform
    dsimp only
    split
    · exact isPending_raise_other _ hc
    · rfl
  exact hdrive { p with line := { p.line with stations := judgeStations p } }

/-- The end of mount raises LINE_STATE, and no STATION (log 38). -/
theorem mountReady_isPending (p : Part) :
    (mountReady p).isPending .lineState = true ∧ (mountReady p).isPending .station = p.isPending .station := by
  have hscan : ∀ c, (mountReady p).isPending c = (settleStations (becomeReady p)).isPending c := isPending_of_att (askScan_att _)
  rw [hscan, hscan, settleStations_isPending (c := .lineState) (by decide), settleStations_isPending (c := .station) (by decide)]
  exact ⟨Part.raise_isPending _ .lineState, isPending_raise_other _ (by decide)⟩

/-- With no unit to erase and no BAD record to write, the finishing steps are the last of them (R135). -/
theorem cuRun_finishSteps (n : Nat) (hA : p.cat.await = none) (hT : p.cat.todo = finishSteps [] false) (hB : p.cat.badWaiting = [])
    (hdirty : dirtyUnits p.store = []) :
    cuRun (n + 5) p = endJob (freeTested (onlyDo [.mountReady] p) (mountReady (onlyDo [] p))) := by
  have hsweep : sweepOn [] (onlyDo [.mountReady] p) = onlyDo [.mountReady] p := by
    have hnone : ∀ b, nextSwept p.store [] b = [] := fun b => by simp [nextSwept, hdirty]
    simp [sweepOn, onlyDo, hnone]
  obtain ⟨-, -, -, hcat, -⟩ := mountReady_frame (onlyDo [] p)
  calc cuRun (n + 5) p
    _ = cuRun (n + 4) (onlyDo [.flushBad, .mountSweep, .mountReady] p) := cuRun_steady (n + 4) hA hT rfl rfl
    _ = cuRun (n + 3) (onlyDo [.mountSweep, .mountReady] p) := cuRun_flushBad (n + 3) hA rfl hB
    _ = cuRun (n + 2) (onlyDo [.mountReady] p) := cuRun_steady (n + 2) hA rfl hsweep rfl
    _ = cuRun (n + 1) (freeTested (onlyDo [.mountReady] p) (mountReady (onlyDo [] p))) :=
      cuRun_op (p := onlyDo [.mountReady] p) (op := .mountReady) (rest := []) (n + 1) hA rfl
    _ = endJob (freeTested (onlyDo [.mountReady] p) (mountReady (onlyDo [] p))) :=
      cuRun_done n (by rw [freeTested_cat, hcat]; exact hA) (by rw [freeTested_cat, hcat]; rfl)

/-- With no operation in progress on either bank, mount has nothing to wait for (R135). -/
theorem mountDrive_idle (n : Nat) (a : Answers) (h : ∀ b, p.store.queue b = []) : mountDrive n a p = (p, false) := by
  have hnone : nextToEnd a p.store = none := by
    simp [nextToEnd, show p.store.bank0 = [] from h .even, show p.store.bank1 = [] from h .odd]
  cases n with
  | zero => rfl
  | succ n => simp [mountDrive, hnone]

/-- A mount that asks no bank for anything is over where its beginning and its finishing steps leave it. -/
theorem mount_idle {env : MountEnv} {q : Part}
    (hq : (if (mountBegin env p).cat.work = .mount then cuRun Config.workBound (mountBegin env p) else mountBegin env p) = q)
    (h : ∀ b, q.store.queue b = []) : mount env p = (askScan (cuSettle q), false) := by
  rw [mount]
  dsimp only
  rw [hq, mountDrive_idle _ _ h]
  rfl

@[simp] theorem askScan_key (p : Part) : (askScan p).key = p.key := by unfold askScan; split <;> rfl

/-- What sees neither the store nor the port, the end of a mount leaves as it is. -/
theorem settled_field {α : Type} (f : Part → α) (hstore : ∀ p g, f (Part.withStore p g) = f p) (hhand : ∀ p, f (handOver p) = f p)
    (hask : ∀ p, f (askScan p) = f p) (p : Part) : f (askScan (cuSettle p)) = f p :=
  (hask _).trans (cuSettle_frame f p (hstore p) hhand)

/-- The end of the Catalogue Unit's work in mount, and the scan asked for at the end of MOUNTING (R117, R124, R144). -/
def workOver (old p : Part) : Part := askScan (cuSettle (endJob (freeTested old p)))

/-- What sees neither the store nor the port nor the Catalogue Unit's scratch items, the end of the work leaves as it is. -/
theorem workOver_field {α : Type} (f : Part → α) (hstore : ∀ p g, f (Part.withStore p g) = f p) (hhand : ∀ p, f (handOver p) = f p)
    (hend : ∀ p, f (endJob p) = f p) (hask : ∀ p, f (askScan p) = f p) (old p : Part) : f (workOver old p) = f p :=
  (settled_field f hstore hhand hask _).trans ((hend _).trans (freeTested_frame f p (hstore p) hhand old))

theorem workOver_cat (old p : Part) : (workOver old p).cat = (endJob p).cat := by
  rw [workOver, askScan_cat, cuSettle_cat, endJob, endJob, Part.withCat_cat, Part.withCat_cat, freeTested_cat]

theorem reclaimTest_recordSize (p : Part) : (reclaimTest p).store.recordSize = p.store.recordSize := by
  rcases reclaimTest_cases p with h | h | h <;> rw [h] <;> rfl

theorem workOver_recordSize (old p : Part) : (workOver old p).store.recordSize = p.store.recordSize := by
  have htested : (freeTested old p).store.recordSize = p.store.recordSize := by
    unfold freeTested
    split
    · rfl
    · exact reclaimTest_recordSize p
  rw [workOver, askScan_store, cuSettle, handOver_store]
  split
  · exact (reclaimTest_recordSize _).trans htested
  · exact htested

theorem workOver_bad (old p : Part) (u : Nat) : ((workOver old p).store.unit u).bad = (p.store.unit u).bad := by
  rw [workOver, askScan_store, cuSettle_bad]
  exact freeTested_bad old p u

theorem workOver_att (old p : Part) : (workOver old p).att = p.att :=
  workOver_field Part.att (fun _ _ => rfl) (fun _ => rfl) (fun _ => rfl) askScan_att old p

theorem workOver_memories (old p : Part) : (workOver old p).memories = p.memories := by
  rw [workOver, askScan_memories, cuSettle_memories]
  exact freeTested_memories p old

theorem releaseReset_uncut {env : MountEnv} {q : Part} (hpowered : p.pins.powered = true) (hlow : p.pins.resetLow = true)
    (h : mount env (released p) = (q, false)) : releaseReset env p = q := by
  have hrel : (p.pins.powered && p.pins.resetLow) = true := by rw [hpowered, hlow]; rfl
  rw [releaseReset, if_pos hrel]
  dsimp only
  rw [← released, h]
  rfl

end

/-! ## Mounts that ask no bank for anything -/

section
variable {env : MountEnv} {R : Nat} {x : Replay} {write : Option Nat} {appended : Bool} {p q : Part}

theorem rebuild_areaRead (h : p.store = q.store) :
    (rebuild env R x (areaRead env p)).store.unweak = (rebuild env R x q).store.unweak :=
  rebuild_unweak ((noteMountReads_unweak env p.store).trans (congrArg Store.unweak h))

theorem noteMountReads_queue (env : MountEnv) (s : Store) (b : Bank) : (noteMountReads env s).queue b = s.queue b :=
  foldl_field (Store.queue · b) (fun t r => by
    split
    · exact noteRead_queue t _ _ b
    · rfl) env.reads s

theorem rebuiltReady_queue (hidle : ∀ b, p.store.queue b = []) (b : Bank) :
    (mountReady (onlyDo [] (rebuiltToFinish env R x write appended p))).store.queue b = [] := by
  obtain ⟨-, -, -, -, -, hstore, -⟩ := mountReady_frame (onlyDo [] (rebuiltToFinish env R x write appended p))
  have hclasses : ∀ s : Store, (setClasses s).queue b = s.queue b := fun s => by cases b <;> rfl
  rw [hstore, hclasses]
  exact (rebuild_queue (env := env) (R := R) (x := x) (p := areaRead env p) b).trans
    ((noteMountReads_queue env p.store b).trans (hidle b))

/-- What stands of a part q that mount has made READY from p, by the items x of the journal and R (R4, R92, R126, R135). -/
structure MountsReady (env : MountEnv) (R : Nat) (x : Replay) (p q : Part) : Prop where
  pins       : q.pins = p.pins
  device     : q.device = .ready
  gap        : q.gap = false
  nextSeq    : q.cat.nextSeq = highest (allValid env p.store) + 1
  entries    : q.cat.entries = x.entries.mapIdx mountedEntry
  rules      : q.rules = x.sets.map (mountedSet env p.store)
  line       : ∃ stations c, stations.map Station.image = x.stations ∧ q.line =
    { p.line with state := mountedState x.format, params := x.params, active := x.format, stations := stations, conform := c }
  lineState  : q.isPending .lineState = true
  station    : q.isPending .station = p.isPending .station
  recordSize : q.store.recordSize = some R
  bad        : ∀ u < p.store.units.length, (q.store.unit u).bad = decide (u ∈ x.bad)
  memories   : q.memories = p.memories

theorem noteMountReads_pages (env : MountEnv) (s : Store) (u : Nat) : ((noteMountReads env s).unit u).pages = (s.unit u).pages :=
  foldl_field (fun s => (s.unit u).pages)
    (fun t r => by
      split
      · exact noteRead_unit_field EraseUnit.pages (fun _ => rfl) t _ _ u
      · rfl) env.reads s

theorem noteMountReads_length (env : MountEnv) (s : Store) : (noteMountReads env s).units.length = s.units.length := by
  have hlen : ∀ t : Store, t.unweak.units.length = t.units.length := fun t => List.length_map _
  rw [← hlen, noteMountReads_unweak, hlen]

theorem setClasses_bad (s : Store) (u : Nat) : ((setClasses s).unit u).bad = (s.unit u).bad := by
  by_cases h : u < s.units.length
  · simp [setClasses, Store.unit, h]
  · simp [setClasses, Store.unit, h]

theorem areaRead_frame (env : MountEnv) (p : Part) : (areaRead env p).pins = p.pins ∧ (areaRead env p).gap = false ∧
    (areaRead env p).line = p.line ∧ (areaRead env p).cat.nextSeq = highest (allValid env p.store) + 1 ∧
    (areaRead env p).store = noteMountReads env p.store := ⟨rfl, rfl, rfl, rfl, rfl⟩

/-- The last finishing step makes the part READY (R135). -/
theorem mountReady_mountsReady (env : MountEnv) (R : Nat) (x : Replay) (write : Option Nat) (appended : Bool) (p : Part) :
    MountsReady env R x p (mountReady (onlyDo [] (rebuiltToFinish env R x write appended p))) := by
  have hready := mountReady_frame (onlyDo [] (rebuiltToFinish env R x write appended p))
  have hcauses := mountReady_isPending (onlyDo [] (rebuiltToFinish env R x write appended p))
  have hmem := mountReady_memories (p := onlyDo [] (rebuiltToFinish env R x write appended p))
  generalize mountReady (onlyDo [] (rebuiltToFinish env R x write appended p)) = m at hready hcauses hmem ⊢
  obtain ⟨hpinsR, -, hgapR, hcatR, hlineR⟩ := rebuild_frame env R x (areaRead env p)
  obtain ⟨hpinsA, hgapA, hlineA, hseqA, hstoreA⟩ := areaRead_frame env p
  simp only [onlyDo, rebuiltToFinish, Part.withCat_pins, Part.withCat_gap, Part.withCat_cat, Part.withCat_rules, Part.withCat_line,
    Part.withCat_store, hpinsR, hgapR, hcatR, hlineR, hpinsA, hgapA, hlineA] at hready
  obtain ⟨hpins, hdevice, hgap, hcat, hrules, hstore, stations, c, hstations, hline⟩ := hready
  have himages : (x.stations.map mountedStation).map Station.image = x.stations := by
    simp [Function.comp_def, mountedStation, Station.image]
  refine {
    pins := hpins, device := hdevice, gap := hgap, nextSeq := ?_, entries := by rw [hcat], rules := ?_
    line := ⟨stations, c, hstations.trans himages, hline⟩
    lineState := hcauses.1, station := ?_, recordSize := ?_, bad := fun u hu => ?_, memories := ?_ }
  · rw [hcat]
    exact hseqA
  · rw [hrules, rebuild_rules, hstoreA, mountedSet_congr (noteMountReads_flash env p.store) (noteMountReads_pages env p.store)]
  · refine hcauses.2.trans ?_
    exact rebuild_isPending (env := env) (R := R) (x := x) (p := areaRead env p) (c := .station) (by decide)
  · rw [hstore]
    exact rebuild_recordSize (env := env) (R := R) (x := x) (p := areaRead env p)
  · rw [hstore, setClasses_bad]
    rw [← noteMountReads_length env p.store, ← hstoreA] at hu
    exact rebuild_bad hu
  · rw [hmem, onlyDo, rebuiltToFinish, Part.withCat_memories, Part.withCat_memories, rebuild_memories, Part.memories, hstoreA,
      noteMountReads_flash]
    rfl

/-- And what follows it leaves it so. -/
theorem MountsReady.workOver (h : MountsReady env R x p q) (old : Part) : MountsReady env R x p (workOver old q) where
  pins := (workOver_field Part.pins (fun _ _ => rfl) (fun _ => rfl) (fun _ => rfl) askScan_pins old q).trans h.pins
  device := (workOver_field Part.device (fun _ _ => rfl) (fun _ => rfl) (fun _ => rfl) askScan_device old q).trans h.device
  gap := (workOver_field Part.gap (fun _ _ => rfl) (fun _ => rfl) (fun _ => rfl) askScan_gap old q).trans h.gap
  nextSeq := (congrArg CatUnit.nextSeq (workOver_cat old q)).trans h.nextSeq
  entries := (congrArg CatUnit.entries (workOver_cat old q)).trans h.entries
  rules := (workOver_field Part.rules (fun _ _ => rfl) (fun _ => rfl) (fun _ => rfl) askScan_rules old q).trans h.rules
  line := (workOver_field Part.line (fun _ _ => rfl) (fun _ => rfl) (fun _ => rfl) askScan_line old q).symm ▸ h.line
  lineState := (isPending_of_att (workOver_att old q) .lineState).trans h.lineState
  station := (isPending_of_att (workOver_att old q) .station).trans h.station
  recordSize := (workOver_recordSize old q).trans h.recordSize
  bad := fun u hu => (workOver_bad old q u).trans (h.bad u hu)
  memories := (workOver_memories old q).trans h.memories

/-- Over a store with a snapshot, no number missing after it, and no unit to erase, mount ends READY (R133 to R135). -/
theorem mount_ready {vs : List ValidSlot} {begin : Nat} (hcat : p.cat = CatUnit.reset) (hidle : ∀ b, p.store.queue b = [])
    (hchosen : chooseSnapshot (allValid env p.store) = some (begin, R))
    (hvs : vs = (allValid env p.store).filter fun v => decide (v.unit < R))
    (hcarried : ∀ n, begin ≤ n → n ≤ highest (allValid env p.store) → recordAt vs n ≠ none)
    (hx : x = ((List.range (highest (allValid env p.store) + 1 - begin)).filterMap fun i => recordAt vs (begin + i)).foldl
      Replay.meet Replay.start)
    (hq : p.store = q.store)
    (hold : ∀ u < R, isOldRecordUnit vs begin (highest (allValid env p.store)) (rebuild env R x q).store u = false)
    (hdirty : dirtyUnits (rebuild env R x q).store = []) :
    ∃ r, mount env p = (r, false) ∧ r.cat.work = .idle ∧ MountsReady env R x p r := by
  have hreplay : replayFrom vs (highest (allValid env p.store)) (vs.length + 1) begin .start = (x, false) := by
    rw [replayFrom_carried _ _ _ (Nat.le_succ_of_le (carried_length hcarried)) hcarried, ← hx]
  have holds : oldRecordUnits vs begin (highest (allValid env p.store)) R (rebuild env R x (areaRead env p)).store = [] := by
    refine List.filter_eq_nil_iff.2 fun u hu => ?_
    rw [← isOldRecordUnit_unweak, rebuild_areaRead hq, isOldRecordUnit_unweak, hold u (List.mem_range.1 hu)]
    exact Bool.false_ne_true
  have hdirts : dirtyUnits (rebuild env R x (areaRead env p)).store = [] := by
    rw [← dirtyUnits_unweak, rebuild_areaRead hq, dirtyUnits_unweak, hdirty]
  obtain ⟨write, appended, hbegun⟩ := mountBegin_rebuilt hchosen hvs hreplay holds
  obtain ⟨-, -, -, hcatR, -⟩ := rebuild_frame env R x (areaRead env p)
  have hstart : (areaRead env p).cat.await = none ∧ (areaRead env p).cat.badWaiting = [] := by
    rw [areaRead, Part.withCat_cat, hcat]
    exact ⟨rfl, rfl⟩
  have hrun := cuRun_finishSteps (p := rebuiltToFinish env R x write appended p) 8187
    (by rw [rebuiltToFinish, Part.withCat_cat, hcatR]; exact hstart.1) rfl
    (by rw [rebuiltToFinish, Part.withCat_cat, hcatR]; exact hstart.2) hdirts
  refine ⟨_, mount_idle ((if_pos ?_).trans ((congrArg (cuRun Config.workBound) hbegun).trans hrun)) fun b => ?_, ?_,
    (mountReady_mountsReady env R x write appended p).workOver (onlyDo [.mountReady] (rebuiltToFinish env R x write appended p))⟩
  · rw [hbegun]
    rfl
  · rw [endJob, Part.withCat_store, freeTested_queue]
    exact rebuiltReady_queue hidle b
  · rw [askScan_cat, cuSettle_cat]
    rfl

/-! ## A store without a journal -/

/-- Over a store that holds no record mount ends UNFORMATTED, with nothing rebuilt (R132, R136). -/
theorem mount_unformatted (hcat : p.cat = CatUnit.reset) (hidle : ∀ b, p.store.queue b = [])
    (hblank : ∀ u < 64, (p.store.unit u).mode ≠ .record) : ∃ r, mount env p = (r, false) ∧ r.pins = p.pins ∧
    r.device = .unformatted ∧ r.cat = CatUnit.reset ∧ r.line = p.line ∧ r.key = p.key ∧ r.gap = false ∧
    r.store.flash = p.store.flash := by
  have hnone : allValid env p.store = [] :=
    List.flatMap_eq_nil_iff.2 fun u hu => if_neg (hblank u (List.mem_range.1 hu))
  have hbegun := mountBegin_unformatted (env := env) (p := p) (by rw [hnone]; rfl)
  have hcatR : (areaRead env p).cat = CatUnit.reset := by
    rw [areaRead, Part.withCat_cat, hcat, hnone]
    rfl
  have hwork : (mountBegin env p).cat.work ≠ .mount := by
    rw [hbegun]
    exact hcatR.symm ▸ nofun
  refine ⟨_, mount_idle (if_neg hwork) fun b => ?_, ?_⟩
  · rw [hbegun]
    exact (noteMountReads_queue env p.store b).trans (hidle b)
  · rw [hbegun]
    exact ⟨settled_field Part.pins (fun _ _ => rfl) (fun _ => rfl) askScan_pins _,
      settled_field Part.device (fun _ _ => rfl) (fun _ => rfl) askScan_device _,
      ((askScan_cat _).trans (cuSettle_cat _)).trans hcatR,
      settled_field Part.line (fun _ _ => rfl) (fun _ => rfl) askScan_line _,
      settled_field Part.key (fun _ _ => rfl) (fun _ => rfl) askScan_key _,
      settled_field Part.gap (fun _ _ => rfl) (fun _ => rfl) askScan_gap _,
      (congrArg Store.flash (askScan_store _)).trans ((cuSettle_flash _).trans (noteMountReads_flash env p.store))⟩

end

/-! ## The claim -/

theorem banks_idle {s : Store} (h0 : s.bank0 = []) (h1 : s.bank1 = []) : ∀ b, s.queue b = []
  | .even => h0
  | .odd => h1

/-- What a mount that was not cut short leaves, RESET_RELEASE leaves. -/
theorem exec_resetRelease {env : MountEnv} {s : State} {r : Part} (hpowered : s.part.pins.powered = true)
    (hlow : s.part.pins.resetLow = true) (h : mount env (released s.part) = (r, false)) :
    exec (.resetRelease env) s = .next { s with part := r } := apply_of_eq (releaseReset_uncut hpowered hlow h)

theorem on_of_released {p r : Part} (hpowered : p.pins.powered = true) (h : r.pins = (released p).pins) : r.on = true := by
  rw [Part.on, h]
  exact (Bool.and_true _).trans hpowered

/-- Settles O17: the two mounts by what mount makes of the journal, the choice by a walk over the slots, the group by one over its
entries (R129, R133 to R136). -/
theorem releaseOverBlankStore : Obligations.ReleaseOverBlankStore := by
  refine ⟨?_, ?_, fun _ _ _ => chooseSnapshot_some, fun _ => chooseSnapshot_none, fun _ _ _ _ => meet_commitGroup⟩
  case refine_1 =>
    intro s env hpowered hlow hcat h0 h1 hblank
    obtain ⟨r, hmount, hpins, hdevice, hcatR, hline, hkey, hgap, hflash⟩ :=
      mount_unformatted (env := env) (p := released s.part) hcat (banks_idle h0 h1) hblank
    exact ⟨_, exec_resetRelease hpowered hlow hmount, on_of_released hpowered hpins, hdevice, congrArg CatUnit.nextSeq hcatR,
      congrArg CatUnit.entries hcatR, hline, congrArg Debounce.running hkey, hgap, hflash, rfl⟩
  case refine_2 =>
    intro s env found vs h begin R x hpowered hlow hcat h0 h1 hfound hh hchosen hvs hcarried hx hold hdirty
    subst hfound hh
    obtain ⟨r, hmount, hwork, hr⟩ := mount_ready (p := released s.part) (q := s.part) hcat (banks_idle h0 h1) hchosen hvs hcarried hx
      rfl hold hdirty
    obtain ⟨stations, c, hstations, hline⟩ := hr.line
    obtain ⟨hhost, hflash⟩ := Prod.mk.inj hr.memories
    refine ⟨_, exec_resetRelease hpowered hlow hmount, on_of_released hpowered hr.pins, hr.device, hr.gap, hr.nextSeq, hwork,
      hr.recordSize, hr.entries, ?_, fun n img himg => ?_,
      (congrArg (fun l : Line => l.stations.map Station.image) hline).trans hstations, congrArg Line.params hline,
      congrArg Line.active hline, congrArg Line.state hline, congrArg Line.seconds hline, (congrArg Line.epoch hline :),
      hr.lineState, hr.station, hr.bad, hflash, hhost, rfl⟩
    · rw [hr.rules, List.map_map]
      exact List.map_id'' mountedSet_image x.sets
    · rw [hr.rules, List.getElem?_map, himg]
      rfl

end Sys2Proof.Machine
end

section
/-! The step by the shape of the command queue. -/
namespace Sys2Proof.Machine

theorem step_of_pending_cons {s : State} {c : Instr} {cs : List Instr} (h : s.pending = c :: cs) :
    step s = exec c { s with pending := cs } := by
  rw [step, h]

theorem step_of_pending_nil {s : State} (h : s.pending = []) : step s = .next s := by
  rw [step, h]

/-- Settles O1: the two equations of the step, one for each shape of the queue. -/
theorem stepRunsTheFrontCommand : Obligations.StepRunsTheFrontCommand :=
  fun _ => ⟨fun _ _ => step_of_pending_cons, step_of_pending_nil⟩

end Sys2Proof.Machine
end
